-- ==== Sys2Proof/Word.lean ====
section
/-! DEFINITION. The block's words: the byte, the 16-bit field, the 32-bit count, the four-byte sequence.

Every integer of this hardware is unsigned (spec/00_scope.md R11). An address or a password is a
sequence of four bytes and never a number (spec/20_memory.md R57). -/

namespace Sys2Proof

/-- A byte, 0 to 255 (R11). -/
abbrev Byte := BitVec 8

/-- A u16: the `length` and `checksum` fields of a frame (R11, R84, R85). -/
abbrev Half := BitVec 16

/-- A u32: the received-byte count `RXCOUNT` (R11, R31). -/
abbrev Count := BitVec 32

/-- Four bytes in order, index 0 first on the wire: an address or a password (R22, R57). -/
structure Bytes4 where
  b0 : Byte
  b1 : Byte
  b2 : Byte
  b3 : Byte
  deriving DecidableEq, Repr, Inhabited

/-- The four bytes as they go on the wire (R12, R57). -/
def Bytes4.toList (a : Bytes4) : List Byte := [a.b0, a.b1, a.b2, a.b3]

end Sys2Proof
end

