-- ==== Sys2Proof/Config.lean ====
section
/-! DEFINITION. What an implementation or the environment fixes: the parameter record of
spec/00_scope.md R9, and the free values, each an opaque constant without a body.

The record is held in State, so that a statement about every state is a statement about every
binding of the parameters (spec/92_eei_decisions.md D2: "exact for every binding"). The default
binding P0 stands in Machine/Binding.lean. -/

namespace Sys2Proof

/-- The four roles of a frame (R83). -/
inductive Kind where
  | command
  | data
  | acknowledge
  | endOfData
  deriving DecidableEq, Repr, Inhabited

/-- The speed the transport runs at, as far as anything is known of it (spec/10_state.md R38,
spec/42_transport_exchange.md R153). -/
inductive LineSpeed where
  | ofSelector (m : Nat)
  | unknown
  deriving DecidableEq, Repr, Inhabited

/-- The operations that have a command descriptor (spec/43_commands.md R181). -/
inductive CmdOp where
  | vfyPwd
  | readSysPara
  | templateNum
  | setBaud
  | setSecurity
  | setDatalen
  | genImage
  | upImage
  deriving DecidableEq, Repr, Inhabited

/-- The parameters the source leaves without a value (R9). `TIMEOUT(op)` and `TIMEOUT_STREAM` are
the opaque constants below: no rule depends on them. `ACK_LEN(READ_SYS_PARA)` is no parameter: the
source settles it (R9, R181), see Machine/Operands.lean. The literals the source prints are not here: R10 says
they are no parameters, spec/93_implementation_defined.md U12 would keep them in the record for an audit, and
following R10 is the model's choice (log entry 25). -/
structure Params where
  start0 : Byte
  start1 : Byte
  addrDefault : Bytes4
  kCommand : Byte
  kData : Byte
  kAck : Byte
  kEnd : Byte
  icVfyPwd : Byte
  icReadSysPara : Byte
  icTemplateNum : Byte
  icSetSysPara : Byte
  icGenImage : Byte
  icUpImage : Byte
  pnBaud : Byte
  pnSecurity : Byte
  pnDatalen : Byte
  stSuccess : Byte
  stWrongPassword : Byte
  stNoFinger : Byte
  stLibraryFull : Byte
  sysIdConst : Half
  ackVfyPwd : Nat
  ackTemplateNum : Nat
  ackSetSysPara : Nat
  ackGenImage : Nat
  ackUpImage : Nat
  maxPayload : Nat
  dlenReset : BitVec 2
  baudReset : BitVec 4
  flushOnTransportError : Bool
  deriving DecidableEq, Repr, Inhabited

/-- What the environment does at ONE call out of the block (spec/20_memory.md R52, R53;
spec/42_transport_exchange.md R150 to R154): the bytes the module has put into `IN` by the time of
the call, how many bytes the call moves (cut down to what is possible), whether the transport
reports `Error`, and whether the reset event lands inside the call (spec/70_reset_and_hazards.md R290). -/
structure EnvChoice where
  arrived : List Byte
  count : Nat
  error : Bool
  reset : Bool
  deriving DecidableEq, Repr, Inhabited

/-- FREE VALUE. The environment's choice at the n-th outward call since power-on, where State's own
list of choices does not give one (R53, R154: "the model must quantify over every choice"). -/
opaque Config.freeEnv : Nat → EnvChoice

/-- FREE VALUE. `TIMEOUT(op)` (R9: OPEN; no rule depends on it). -/
opaque Config.timeout : CmdOp → Nat

/-- FREE VALUE. `TIMEOUT_STREAM` (R9: OPEN; no rule depends on it). -/
opaque Config.timeoutStream : Nat

/-- FREE VALUE. `SYS_ID_CONST` in the default binding (R9: "OPEN, no P0 value"). -/
opaque Config.sysId : Half

/-! Free values for operands outside the domain their rule gives them, where the spec states no result (log
entry 23). The number they are applied to is the count of outward calls so far, so that each run of an
operation has its own; CHECKSUM makes no call, and its value is a function of its operands. -/

/-- FREE VALUE. `CHECKSUM(kind, L, payload)` where `L` is not the payload's length or is above 65533 (R120). -/
opaque Config.freeChecksum : Params → Kind → Nat → List Byte → Half

/-- FREE VALUE. The checksum verdict on a frame received for an expected length outside 2 to 258 (R156). -/
opaque Config.freeVerdict : Nat → Bool

/-- FREE VALUE. The payload of such a frame (R156). -/
opaque Config.freePayload : Nat → List Byte

/-- FREE VALUE. `RXLEN` after more bytes than `RXBUF` holds (R33, R156). -/
opaque Config.freeRxlen : Nat → Nat

/-- FREE VALUE. The byte at an offset of an acknowledgement too short to hold it, which only a binding that
is not legal expects (R157, R184). -/
opaque Config.freeAckByte : Nat → Nat → Byte

/-- FREE VALUE. The transport's speed after `T.reconfigure_speed(m)` has returned `Done` for an `m` that is
no baud selector (R153). -/
opaque Config.freeSpeed : Nat → LineSpeed

end Sys2Proof
end

