-- ==== Sys2Proof/Syntax.lean ====
section
/-! DEFINITION. The instructions: one constructor per row of spec/opcode_table.json, in the table's
order. Four frame kinds, eight command requests and three acknowledgement shapes are frames and
carry every field of the frame that the row does not fix, the checksum included; the 25 block
operations (spec/30_encoding.md R100) carry their operands and have no binary encoding
(spec/92_eei_decisions.md D1). -/

namespace Sys2Proof

/-- The 16-byte system-parameter body (R90; the widths are the spec's general-knowledge layout). -/
structure SysParams where
  statusFlags : Half
  identifier : Half
  capacity : Half
  securityLevel : Half
  deviceAddress : Bytes4
  dataLength : Half
  baud : Half
  deriving DecidableEq, Repr, Inhabited

/-- One constructor per row of the opcode table. `len` and `cks` are a frame's `length` and
`checksum` fields as they stand in its bytes (R125: DECODE "splits; it checks nothing"). -/
inductive Instr where
  -- FRAME.*: any frame of a kind
  | frameCommand (addr : Bytes4) (len : Half) (payload : List Byte) (cks : Half)
  | frameData (addr : Bytes4) (len : Half) (payload : List Byte) (cks : Half)
  | frameAck (addr : Bytes4) (len : Half) (payload : List Byte) (cks : Half)
  | frameEnd (addr : Bytes4) (len : Half) (payload : List Byte) (cks : Half)
  -- command requests
  | vfyPwd (addr : Bytes4) (pw : Bytes4) (cks : Half)
  | readSysPara (addr : Bytes4) (cks : Half)
  | templateNum (addr : Bytes4) (cks : Half)
  | setBaud (addr : Bytes4) (sel : Byte) (cks : Half)
  | setSecurity (addr : Bytes4) (level : Byte) (cks : Half)
  | setDatalen (addr : Bytes4) (sel : Byte) (cks : Half)
  | genImage (addr : Bytes4) (cks : Half)
  | upImage (addr : Bytes4) (cks : Half)
  -- ACK.*: the expected acknowledgements
  | ackStatus (addr : Bytes4) (status : Byte) (cks : Half)
  | ackTemplateNum (addr : Bytes4) (status : Byte) (count : Half) (cks : Half)
  | ackSysPara (addr : Bytes4) (status : Byte) (body : SysParams) (cks : Half)
  -- OP.*: frame codec and header validator
  | opChecksum (kind : Kind) (L : Nat) (payload : List Byte)
  | opEncode (kind : Kind) (payload : List Byte) (addr : Bytes4)
  | opDecode (buf : List Byte)
  | opVerifyChecksum (buf : List Byte)
  | opValidate (buf : List Byte) (accept : List Kind) (expected : Nat)
  -- OP.*: transport primitives, frames over the transport, the exchange
  | opTWrite (bytes : List Byte)
  | opTRead (n : Nat) (t : Nat)
  | opTFlush
  | opTReconfigureSpeed (m : Nat)
  | opSendFrame (kind : Kind) (payload : List Byte)
  | opRecvFrame (accept : List Kind) (expected : Nat) (t : Nat)
  | opExchange (op : CmdOp) (payload : List Byte)
  -- OP.*: the commands
  | opVfyPwd (pw : Bytes4)
  | opReadSysPara
  | opTemplateNum
  | opSetBaud (sel : Nat)
  | opSetSecurity (level : Nat)
  | opSetDatalen (sel : Nat)
  | opGenImage
  | opSetAddr (a : Bytes4)
  -- OP.*: nibble expander
  | opExpandByte (b : Byte)
  | opExpand (raw : List Byte)
  -- OP.*: bulk transfer
  | opRegisterConsumer (valid : Bool)
  | opUploadImage (sel : Nat)
  | opReadRxcount
  deriving DecidableEq, Repr

end Sys2Proof
end

