-- ==== Sys2Proof/Machine/Binding.lean ====
section
/-! DEFINITION. The default binding P0 of the parameters (spec/00_scope.md R9), which the opcode
table's match values and the spec's vectors use, and what a binding must satisfy. -/

namespace Sys2Proof

/-- The default binding P0 (R9). Values marked GK there are general knowledge, not the source's
(spec/93_implementation_defined.md G1 to G11). -/
def Params.p0 : Params where
  start0 := 0xEF#8
  start1 := 0x01#8
  addrDefault := ⟨0xFF#8, 0xFF#8, 0xFF#8, 0xFF#8⟩
  kCommand := 0x01#8
  kData := 0x02#8
  kAck := 0x07#8
  kEnd := 0x08#8
  icVfyPwd := 0x13#8
  icReadSysPara := 0x0F#8
  icTemplateNum := 0x1D#8
  icSetSysPara := 0x0E#8
  icGenImage := 0x01#8
  icUpImage := 0x0A#8
  pnBaud := 0x04#8
  pnSecurity := 0x05#8
  pnDatalen := 0x06#8
  stSuccess := 0x00#8
  stWrongPassword := 0x13#8
  stNoFinger := 0x02#8
  stLibraryFull := 0x1F#8
  sysIdConst := Config.sysId
  ackVfyPwd := 1
  ackTemplateNum := 3
  ackSetSysPara := 1
  ackGenImage := 1
  ackUpImage := 1
  maxPayload := 256
  dlenReset := 2#2
  baudReset := 6#4
  flushOnTransportError := false

/-- The legal baud selectors (R10, R24): 1, 2, 4, 6, 12. -/
def legalBaud (n : Nat) : Bool := n == 1 || n == 2 || n == 4 || n == 6 || n == 12

/-- An acknowledgement size the rules can work with: the status byte is there (R157: `ACK_LEN >= 1`)
and the frame fits `RXBUF` (R33). -/
def legalAckLen (n : Nat) : Bool := decide (1 ≤ n) && decide (n ≤ 256)

/-- What R9 and the rules that use the parameters ask of a binding: pairwise different kind bytes, failure
codes that differ from `ST_SUCCESS`, `MAX_PAYLOAD <= 65533`, a legal `BAUD_RESET`, acknowledgement
sizes the exchange can read, and room for the two count bytes of R184. -/
def Params.ok (p : Params) : Bool :=
  p.kCommand != p.kData && p.kCommand != p.kAck && p.kCommand != p.kEnd &&
  p.kData != p.kAck && p.kData != p.kEnd && p.kAck != p.kEnd &&
  p.stWrongPassword != p.stSuccess && p.stNoFinger != p.stSuccess &&
  p.stLibraryFull != p.stSuccess &&
  decide (p.maxPayload ≤ 65533) && legalBaud p.baudReset.toNat &&
  legalAckLen p.ackVfyPwd && legalAckLen p.ackTemplateNum && decide (3 ≤ p.ackTemplateNum) &&
  legalAckLen p.ackSetSysPara && legalAckLen p.ackGenImage && legalAckLen p.ackUpImage

/-- A binding under which the request rows do not overlap: the four code-only requests have
different instruction codes and the three set forms different parameter numbers. The source does
not promise it (spec/91_not_in_source.md N5); it holds under P0. -/
def Params.codesDistinct (p : Params) : Bool :=
  p.icReadSysPara != p.icTemplateNum && p.icReadSysPara != p.icGenImage &&
  p.icReadSysPara != p.icUpImage && p.icTemplateNum != p.icGenImage &&
  p.icTemplateNum != p.icUpImage && p.icGenImage != p.icUpImage &&
  p.pnBaud != p.pnSecurity && p.pnBaud != p.pnDatalen && p.pnSecurity != p.pnDatalen

end Sys2Proof
end

