-- ==== Sys2Proof/Machine/Frame.lean ====
section
/-! DEFINITION. The frame format as pure functions: big-endian halves, the kind byte, the checksum,
building a frame and splitting one (spec/30_encoding.md R80 to R85, spec/40_frame_codec.md), and the
nibble expander (spec/44_nibble_expander.md). -/

namespace Sys2Proof

/-- `hi(v) = v[15:8]` (R12). -/
def hiByte (v : Half) : Byte := v.extractLsb' 8 8

/-- `lo(v) = v[7:0]` (R12). -/
def loByte (v : Half) : Byte := v.extractLsb' 0 8

/-- `be16(h, l) = h*256 + l` (R12, R54): the more significant byte comes first. -/
def be16 (h l : Byte) : Half := h ++ l

/-- Byte `i` of a sequence that is long enough. Every caller has tested the length. -/
def byteAt (bs : List Byte) (i : Nat) : Byte := bs.getD i 0#8

/-- Header bytes: start 2, address 4, kind 1, length 2 (R10, R80). -/
def headerSize : Nat := 9

/-- Checksum bytes (R10, R80). -/
def checksumSize : Nat := 2

/-- The largest payload a u16 `length` field can announce (R84: `L <= 65533`). -/
def maxLength16 : Nat := 65533

/-- `kind_byte` (R83). -/
def kindByte (p : Params) : Kind → Byte
  | .command => p.kCommand
  | .data => p.kData
  | .acknowledge => p.kAck
  | .endOfData => p.kEnd

/-- `kind_of` (R83): `none` for a byte that names no kind. -/
def kindOf (p : Params) (b : Byte) : Option Kind :=
  if b = p.kCommand then some .command
  else if b = p.kData then some .data
  else if b = p.kAck then some .acknowledge
  else if b = p.kEnd then some .endOfData
  else none

/-- The sum of a byte sequence over the natural numbers, each byte zero-extended (R121). -/
def sumBytes : List Byte → Nat
  | [] => 0
  | b :: bs => b.toNat + sumBytes bs

/-- The `length` field of a frame with `L` payload bytes: `L + 2` (R84). -/
def lengthField (L : Nat) : Half := BitVec.ofNat 16 (L + checksumSize)

/-- `CHECKSUM(kind, L, payload)` (R120): kind byte, the two length bytes added as two bytes, and the
payload, modulo 65536. -/
def checksum (p : Params) (kind : Kind) (L : Nat) (payload : List Byte) : Half :=
  BitVec.ofNat 16 ((kindByte p kind).toNat + (hiByte (lengthField L)).toNat
    + (loByte (lengthField L)).toNat + sumBytes payload)

/-- The fields DECODE returns (R125), with start and address. -/
structure FrameFields where
  start0 : Byte
  start1 : Byte
  addr : Bytes4
  kbyte : Byte
  length : Half
  payload : List Byte
  checksum : Half
  deriving DecidableEq, Repr, Inhabited

/-- The bytes of a frame from its fields, in the order of R80. -/
def joinFrame (f : FrameFields) : List Byte :=
  [f.start0, f.start1] ++ f.addr.toList ++ [f.kbyte, hiByte f.length, loByte f.length]
    ++ f.payload ++ [hiByte f.checksum, loByte f.checksum]

/-- `DECODE(buf)` on a buffer of at least 11 bytes (R125): fixed offsets and the size of the buffer,
never the `length` field. -/
def splitFrame (bs : List Byte) : FrameFields where
  start0 := byteAt bs 0
  start1 := byteAt bs 1
  addr := ⟨byteAt bs 2, byteAt bs 3, byteAt bs 4, byteAt bs 5⟩
  kbyte := byteAt bs 6
  length := be16 (byteAt bs 7) (byteAt bs 8)
  payload := (bs.drop headerSize).take (bs.length - headerSize - checksumSize)
  checksum := be16 (byteAt bs (bs.length - 2)) (byteAt bs (bs.length - 1))

/-- The bytes ENCODE makes (R123): every computed field computed, the payload copied unchanged. -/
def encodeFrame (p : Params) (kind : Kind) (payload : List Byte) (addr : Bytes4) : List Byte :=
  joinFrame
    { start0 := p.start0, start1 := p.start1, addr := addr, kbyte := kindByte p kind,
      length := lengthField payload.length, payload := payload,
      checksum := checksum p kind payload.length payload }

/-- The bytes the checksum covers in a frame of `N` bytes: offsets 6 to `N - 3` (R85). -/
def coveredBytes (bs : List Byte) : List Byte := (bs.drop 6).take (bs.length - 8)

/-- `VERIFY_CHECKSUM(buf)` on a buffer of at least 11 bytes (R126). -/
def verifyChecksum (bs : List Byte) : Bool :=
  BitVec.ofNat 16 (sumBytes (coveredBytes bs))
    == be16 (byteAt bs (bs.length - 2)) (byteAt bs (bs.length - 1))

/-- `EXPAND_BYTE(b)` (R210): the high nibble masked in place, the low nibble moved up. -/
def expandByte (b : Byte) : Byte × Byte := (b &&& 0xF0#8, (b &&& 0x0F#8) <<< 4)

/-- The output of `EXPAND(raw)` (R212): two bytes for one, in order, high nibble first. -/
def expandBytes : List Byte → List Byte
  | [] => []
  | b :: bs => (expandByte b).1 :: (expandByte b).2 :: expandBytes bs

/-- The 16-byte body of a system-parameter acknowledgement (R90). -/
def SysParams.toBytes (b : SysParams) : List Byte :=
  [hiByte b.statusFlags, loByte b.statusFlags, hiByte b.identifier, loByte b.identifier,
   hiByte b.capacity, loByte b.capacity, hiByte b.securityLevel, loByte b.securityLevel]
   ++ b.deviceAddress.toList
   ++ [hiByte b.dataLength, loByte b.dataLength, hiByte b.baud, loByte b.baud]

/-- The seven fields at the body offsets of R90. -/
def SysParams.ofBytes (bs : List Byte) : SysParams where
  statusFlags := be16 (byteAt bs 0) (byteAt bs 1)
  identifier := be16 (byteAt bs 2) (byteAt bs 3)
  capacity := be16 (byteAt bs 4) (byteAt bs 5)
  securityLevel := be16 (byteAt bs 6) (byteAt bs 7)
  deviceAddress := ⟨byteAt bs 8, byteAt bs 9, byteAt bs 10, byteAt bs 11⟩
  dataLength := be16 (byteAt bs 12) (byteAt bs 13)
  baud := be16 (byteAt bs 14) (byteAt bs 15)

end Sys2Proof
end

