-- ==== Sys2Proof/WellFormed.lean ====
section
/-! DEFINITION. Well-formed instructions: a frame whose computed fields are the ones ENCODE computes
and that is not another, more specific row's frame; an operation whose operands lie in the domain its
rule gives them. A selector or level outside its legal set is NOT ill-formed: the operation runs and
raises InvalidParameter (spec/43_commands.md R180). -/

namespace Sys2Proof

/-- `length` and `checksum` are what ENCODE computes for this kind and payload (R84, R85, R123). -/
def computedFieldsRight (p : Params) (kind : Kind) (len : Half) (payload : List Byte)
    (cks : Half) : Bool :=
  decide (payload.length ≤ maxLength16) && len == lengthField payload.length &&
    cks == checksum p kind payload.length payload

/-- The payload is the payload of one of the eight command requests (R87, R181). -/
def isRequestPayload (p : Params) (payload : List Byte) : Bool :=
  match payload with
  | [c] => c == p.icReadSysPara || c == p.icTemplateNum || c == p.icGenImage || c == p.icUpImage
  | [c, n, _] => c == p.icSetSysPara && (n == p.pnBaud || n == p.pnSecurity || n == p.pnDatalen)
  | [c, _, _, _, _] => c == p.icVfyPwd
  | _ => false

/-- The payload has the size of one of the three acknowledgement rows: status alone, status and a
count, status and the 16-byte body (R88, R181). -/
def isAckRowPayload (payload : List Byte) : Bool :=
  payload.length == 1 || payload.length == 3 || payload.length == 17

/-- The static check of an instruction under a binding of the parameters. -/
def wellFormed (p : Params) : Instr → Bool
  | .frameCommand _ len payload cks =>
      computedFieldsRight p .command len payload cks && decide (payload.length ≤ p.maxPayload) &&
        !isRequestPayload p payload
  | .frameData _ len payload cks => computedFieldsRight p .data len payload cks
  | .frameAck _ len payload cks =>
      computedFieldsRight p .acknowledge len payload cks && !isAckRowPayload payload
  | .frameEnd _ len payload cks => computedFieldsRight p .endOfData len payload cks
  | .vfyPwd _ pw cks => cks == checksum p .command 5 (p.icVfyPwd :: pw.toList)
  | .readSysPara _ cks => cks == checksum p .command 1 [p.icReadSysPara]
  | .templateNum _ cks => cks == checksum p .command 1 [p.icTemplateNum]
  | .setBaud _ sel cks => cks == checksum p .command 3 [p.icSetSysPara, p.pnBaud, sel]
  | .setSecurity _ level cks => cks == checksum p .command 3 [p.icSetSysPara, p.pnSecurity, level]
  | .setDatalen _ sel cks => cks == checksum p .command 3 [p.icSetSysPara, p.pnDatalen, sel]
  | .genImage _ cks => cks == checksum p .command 1 [p.icGenImage]
  | .upImage _ cks => cks == checksum p .command 1 [p.icUpImage]
  | .ackStatus _ status cks => cks == checksum p .acknowledge 1 [status]
  | .ackTemplateNum _ status count cks =>
      cks == checksum p .acknowledge 3 [status, hiByte count, loByte count]
  | .ackSysPara _ status body cks => cks == checksum p .acknowledge 17 (status :: body.toBytes)
  | .opChecksum _ L payload => L == payload.length && decide (L ≤ maxLength16)
  | .opEncode _ payload _ => decide (payload.length ≤ p.maxPayload)
  | .opDecode buf => decide (11 ≤ buf.length)
  | .opVerifyChecksum buf => decide (11 ≤ buf.length)
  | .opValidate buf accept expected =>
      decide (9 ≤ buf.length) && !accept.isEmpty && decide (expected < 65536)
  | .opTWrite bytes => decide (11 ≤ bytes.length)
  | .opTRead n _ => decide (11 ≤ n) && decide (n ≤ 267)
  | .opTFlush => true
  | .opTReconfigureSpeed m => legalBaud m
  | .opSendFrame _ payload => decide (payload.length ≤ p.maxPayload)
  | .opRecvFrame accept expected _ =>
      !accept.isEmpty && decide (2 ≤ expected) && decide (expected ≤ 258)
  | .opExchange _ payload => decide (payload.length ≤ p.maxPayload)
  | .opVfyPwd _ => true
  | .opReadSysPara => true
  | .opTemplateNum => true
  | .opSetBaud _ => true
  | .opSetSecurity _ => true
  | .opSetDatalen _ => true
  | .opGenImage => true
  | .opSetAddr _ => true
  | .opExpandByte _ => true
  | .opExpand raw => decide (raw.length ≤ 256)
  | .opRegisterConsumer _ => true
  | .opUploadImage _ => true
  | .opReadRxcount => true

end Sys2Proof
end

