-- ==== Sys2Proof/Decode.lean ====
section
/-! DEFINITION. Decoding a frame's bytes to the row of the opcode table they are, total on any bytes
and rejecting by name, and the encoder. The 25 block operations have no binary encoding
(spec/92_eei_decisions.md D1), so no bytes decode to one and `encode` answers none for them.

Decoding splits the buffer as DECODE does (spec/40_frame_codec.md R125: it "splits; it checks
nothing") and then names the row: the kind byte first, then, where the `length` field agrees with
the buffer's size, the payload's instruction code, parameter number or size. -/

namespace Sys2Proof

/-- Why bytes are no row of the table. -/
inductive DecodeError where
  /-- fewer than 11 bytes: no frame is that short (R86, R125) -/
  | tooShort
  /-- bytes 0..1 are not `START` (R92) -/
  | startMismatch
  /-- the kind byte names no kind (R83, R92) -/
  | kindUnknown
  deriving DecidableEq, Repr

/-- A Command frame's row (R87): a request row where the payload is that request's. Whether instruction codes
and parameter numbers differ is open (spec/91_not_in_source.md N5); where a binding lets two coincide, the
first match in the order below is the row: the model's choice (log entry 26). -/
def decodeRequest (p : Params) (f : FrameFields) : Instr :=
  let general := Instr.frameCommand f.addr f.length f.payload f.checksum
  if f.length = lengthField f.payload.length then
    match f.payload with
    | [c] =>
        if c = p.icReadSysPara then .readSysPara f.addr f.checksum
        else if c = p.icTemplateNum then .templateNum f.addr f.checksum
        else if c = p.icGenImage then .genImage f.addr f.checksum
        else if c = p.icUpImage then .upImage f.addr f.checksum
        else general
    | [c, n, v] =>
        if c = p.icSetSysPara then
          if n = p.pnBaud then .setBaud f.addr v f.checksum
          else if n = p.pnSecurity then .setSecurity f.addr v f.checksum
          else if n = p.pnDatalen then .setDatalen f.addr v f.checksum
          else general
        else general
    | [c, w0, w1, w2, w3] =>
        if c = p.icVfyPwd then .vfyPwd f.addr ⟨w0, w1, w2, w3⟩ f.checksum else general
    | _ => general
  else general

/-- An Acknowledge frame's row (R88, R90, R184): by the size of its payload. -/
def decodeAck (f : FrameFields) : Instr :=
  let general := Instr.frameAck f.addr f.length f.payload f.checksum
  if f.length = lengthField f.payload.length then
    match f.payload with
    | [] => general
    | status :: rest =>
        if rest.length = 0 then .ackStatus f.addr status f.checksum
        else if rest.length = 2 then
          .ackTemplateNum f.addr status (be16 (byteAt rest 0) (byteAt rest 1)) f.checksum
        else if rest.length = 16 then .ackSysPara f.addr status (SysParams.ofBytes rest) f.checksum
        else general
  else general

/-- The row of the table a buffer of bytes is, under a binding of the parameters. -/
def decode (p : Params) (bs : List Byte) : Except DecodeError Instr :=
  if bs.length < 11 then .error .tooShort
  else
    let f := splitFrame bs
    if f.start0 = p.start0 ∧ f.start1 = p.start1 then
      match kindOf p f.kbyte with
      | some .command => .ok (decodeRequest p f)
      | some .data => .ok (.frameData f.addr f.length f.payload f.checksum)
      | some .acknowledge => .ok (decodeAck f)
      | some .endOfData => .ok (.frameEnd f.addr f.length f.payload f.checksum)
      | none => .error .kindUnknown
    else .error .startMismatch

/-- A frame of `kind` with the fields as they stand (R80). -/
def frameBytes (p : Params) (kind : Kind) (addr : Bytes4) (len : Half) (payload : List Byte)
    (cks : Half) : List Byte :=
  joinFrame
    { start0 := p.start0, start1 := p.start1, addr := addr, kbyte := kindByte p kind,
      length := len, payload := payload, checksum := cks }

/-- The bytes of an instruction that has an encoding; none for the block operations (R100, D1). -/
def encode (p : Params) : Instr → Option (List Byte)
  | .frameCommand a len payload cks => some (frameBytes p .command a len payload cks)
  | .frameData a len payload cks => some (frameBytes p .data a len payload cks)
  | .frameAck a len payload cks => some (frameBytes p .acknowledge a len payload cks)
  | .frameEnd a len payload cks => some (frameBytes p .endOfData a len payload cks)
  | .vfyPwd a pw cks => some (frameBytes p .command a 7#16 (p.icVfyPwd :: pw.toList) cks)
  | .readSysPara a cks => some (frameBytes p .command a 3#16 [p.icReadSysPara] cks)
  | .templateNum a cks => some (frameBytes p .command a 3#16 [p.icTemplateNum] cks)
  | .setBaud a sel cks => some (frameBytes p .command a 5#16 [p.icSetSysPara, p.pnBaud, sel] cks)
  | .setSecurity a level cks =>
      some (frameBytes p .command a 5#16 [p.icSetSysPara, p.pnSecurity, level] cks)
  | .setDatalen a sel cks =>
      some (frameBytes p .command a 5#16 [p.icSetSysPara, p.pnDatalen, sel] cks)
  | .genImage a cks => some (frameBytes p .command a 3#16 [p.icGenImage] cks)
  | .upImage a cks => some (frameBytes p .command a 3#16 [p.icUpImage] cks)
  | .ackStatus a st cks => some (frameBytes p .acknowledge a 3#16 [st] cks)
  | .ackTemplateNum a st n cks =>
      some (frameBytes p .acknowledge a 5#16 [st, hiByte n, loByte n] cks)
  | .ackSysPara a st body cks => some (frameBytes p .acknowledge a 19#16 (st :: body.toBytes) cks)
  | .opChecksum _ _ _ => none
  | .opEncode _ _ _ => none
  | .opDecode _ => none
  | .opVerifyChecksum _ => none
  | .opValidate _ _ _ => none
  | .opTWrite _ => none
  | .opTRead _ _ => none
  | .opTFlush => none
  | .opTReconfigureSpeed _ => none
  | .opSendFrame _ _ => none
  | .opRecvFrame _ _ _ => none
  | .opExchange _ _ => none
  | .opVfyPwd _ => none
  | .opReadSysPara => none
  | .opTemplateNum => none
  | .opSetBaud _ => none
  | .opSetSecurity _ => none
  | .opSetDatalen _ => none
  | .opGenImage => none
  | .opSetAddr _ => none
  | .opExpandByte _ => none
  | .opExpand _ => none
  | .opRegisterConsumer _ => none
  | .opUploadImage _ => none
  | .opReadRxcount => none

/-- Who brings an instruction to the block. -/
inductive Source where
  /-- a frame of the module's (R91): kinds Data, Acknowledge and EndOfData -/
  | line
  /-- the upload-image request, which "the host cannot issue" alone (spec/43_commands.md R191) -/
  | upload
  /-- the host, or one of the block's own steps (R100) -/
  | block
  deriving DecidableEq, Repr

/-- The source of each row. -/
def Instr.source : Instr → Source
  | .frameData _ _ _ _ => .line
  | .frameAck _ _ _ _ => .line
  | .frameEnd _ _ _ _ => .line
  | .ackStatus _ _ _ => .line
  | .ackTemplateNum _ _ _ _ => .line
  | .ackSysPara _ _ _ _ => .line
  | .frameCommand _ _ _ _ => .block
  | .vfyPwd _ _ _ => .block
  | .readSysPara _ _ => .block
  | .templateNum _ _ => .block
  | .setBaud _ _ _ => .block
  | .setSecurity _ _ _ => .block
  | .setDatalen _ _ _ => .block
  | .genImage _ _ => .block
  | .upImage _ _ => .upload
  | .opChecksum _ _ _ => .block
  | .opEncode _ _ _ => .block
  | .opDecode _ => .block
  | .opVerifyChecksum _ => .block
  | .opValidate _ _ _ => .block
  | .opTWrite _ => .block
  | .opTRead _ _ => .block
  | .opTFlush => .block
  | .opTReconfigureSpeed _ => .block
  | .opSendFrame _ _ => .block
  | .opRecvFrame _ _ _ => .block
  | .opExchange _ _ => .block
  | .opVfyPwd _ => .block
  | .opReadSysPara => .block
  | .opTemplateNum => .block
  | .opSetBaud _ => .block
  | .opSetSecurity _ => .block
  | .opSetDatalen _ => .block
  | .opGenImage => .block
  | .opSetAddr _ => .block
  | .opExpandByte _ => .block
  | .opExpand _ => .block
  | .opRegisterConsumer _ => .block
  | .opUploadImage _ => .block
  | .opReadRxcount => .block

/-- The frame comes from the module (R91). -/
def Instr.fromModule (i : Instr) : Bool := decide (i.source = .line)

/-- Byte `k` of a table word: bits `8k+7` to `8k`, byte 0 the first on the wire. -/
def wordByte (w k : Nat) : Byte := BitVec.ofNat 8 (w / 2 ^ (8 * k))

/-- The first `n` bytes of a table word from byte `k` on. -/
def wordBytesFrom (w k : Nat) : Nat → List Byte
  | 0 => []
  | n + 1 => wordByte w k :: wordBytesFrom w (k + 1) n

/-- The bytes of the instruction whose first `nbits` bits are `w` and whose other bits are 0: as many
as its `length` field (bytes 7 and 8) announces, and 11 where that is less than any frame has (R84, R86). -/
def layoutWord (nbits w : Nat) : List Byte :=
  let v := w % 2 ^ nbits
  let len := (be16 (wordByte v 7) (wordByte v 8)).toNat
  wordBytesFrom v 0 (headerSize + max len checksumSize)

/-- The instruction the decoder reads from a word of spec/opcode_table.json, whose match values are
those of the default binding P0. -/
def decodeTableWord (nbits w : Nat) : Option Instr :=
  match decode Params.p0 (layoutWord nbits w) with
  | .ok i => some i
  | .error _ => none

end Sys2Proof
end

