-- ==== Sys2Proof/Machine/State.lean ====
section
/-! DEFINITION. The state, the results, the error kinds, the faults and refusals, and reset.

The block's own elements are those of spec/10_state.md R40. Beside them stand the outside world as far as a
run needs it (the streams `OUT` and `IN`, the transport's speed, the host's pending operations), the
environment's choices (the oracle of spec/20_memory.md R53) and the record of what the block put out. -/

namespace Sys2Proof.Machine

/-- The state machine register `FSM` (R28). -/
inductive Fsm where
  | idle
  | awaitingGenerateAck
  | streamingFrames
  deriving DecidableEq, Repr, Inhabited

/-- The thirteen error kinds (spec/60_exceptions.md R250). -/
inductive ErrorKind where
  | writeFailure
  | partialWrite
  | readFailure
  | notFound
  | shortRead
  | reconfigureFailure
  | checksumMismatch
  | startMismatch
  | addressMismatch
  | kindMismatch
  | lengthMismatch
  | invalidParameter
  | notReady
  deriving DecidableEq, Repr, Inhabited

/-- The value of an operation that returns `Ok` (spec/00_scope.md R14). -/
inductive OpValue where
  /-- an operation whose result is `Ok` alone -/
  | done
  /-- CHECKSUM (R120) -/
  | checksum (c : Half)
  /-- ENCODE (R123), EXPAND (R212): the bytes -/
  | bytes (bs : List Byte)
  /-- DECODE (R125) -/
  | fields (f : FrameFields)
  /-- VERIFY_CHECKSUM (R126) -/
  | verdict (b : Bool)
  /-- `T.write`'s `Count(c)` (R150) -/
  | written (c : Nat)
  /-- `T.read`'s `Bytes(r)` (R151) -/
  | received (r : List Byte)
  /-- `Error`, the outcome of a transport primitive issued by itself (R150, R151, R153) -/
  | transportError
  /-- RECV_FRAME (R156) -/
  | frame (k : Kind) (payload : List Byte)
  /-- EXCHANGE (R157) -/
  | exchanged (status : Byte) (fields : List Byte)
  /-- a command whose result is the status byte (R182, R186 to R189, R222) -/
  | status (st : Byte)
  /-- READ_SYS_PARA (R183): the parameters and `id_ok`, none unless the status is success -/
  | sysPara (st : Byte) (params : Option (SysParams × Bool))
  /-- TEMPLATE_NUM (R184): the count, none unless the status is success -/
  | templateNum (st : Byte) (count : Option Half)
  /-- EXPAND_BYTE (R210) -/
  | samples (s0 s1 : Byte)
  /-- READ_RXCOUNT (R230) -/
  | rxcount (c : Count)
  deriving DecidableEq, Repr

/-- Every operation returns exactly one of `Ok(value)` and `Err(kind)` (R14). -/
inductive OpResult where
  | ok (v : OpValue)
  | err (e : ErrorKind)
  deriving DecidableEq, Repr

/-- One call out of the block, as the outside saw it (R64, spec/42_transport_exchange.md,
spec/45_bulk_transfer.md R221). -/
inductive Call where
  /-- `T.write` of `bytes`, of which the first `accepted` went out -/
  | write (bytes : List Byte) (accepted : Nat) (error : Bool)
  /-- `T.read(n, t)`, which took `taken` from `IN` -/
  | read (n t : Nat) (taken : List Byte) (error : Bool)
  | flush
  | reconfigure (m : Nat) (error : Bool)
  /-- `CONSUMER.deliver`, the bytes by value -/
  | deliver (bytes : List Byte)
  deriving DecidableEq, Repr

/-- What the outside presents to the block between two steps. -/
inductive Input where
  /-- the reset event (spec/70_reset_and_hazards.md R290) -/
  | reset
  /-- the host issues an operation (R62, R100) -/
  | issue (i : Instr)
  /-- an instruction given as the bytes of a frame -/
  | code (bytes : List Byte)
  /-- the module puts bytes into `IN`; no bytes at all lets the block go on by itself (R53) -/
  | line (bytes : List Byte)
  deriving DecidableEq, Repr

/-- A buffer: the bytes written so far, at their indices. An index that is not listed holds no value
(R32 to R35). -/
abbrev Memory := List Host.Cell

/-- A fault stops the machine. -/
inductive Fault where
  /-- a read of a buffer element that holds no value, raised by every `MemRead` of Machine/Ops.lean;
  safe; spec/93_implementation_defined.md U1: "`fault`; unreachable by the rules" -/
  | unwrittenElement
  deriving DecidableEq, Repr

/-- A refusal: the model gives the situation no meaning. All are safe. -/
inductive Refusal where
  /-- an instruction without a meaning yet, raised by exec's arms; none is left -/
  | notModelled (mnemonic : String)
  /-- a payload longer than `MAX_PAYLOAD`, raised by ENCODE and whatever sends a frame (R122, U4) -/
  | payloadTooLong
  /-- DECODE or VERIFY_CHECKSUM on fewer than 11 bytes, VALIDATE on fewer than 9 (R125, R126, R140, U4) -/
  | bufferTooShort
  /-- EXPAND on more than 256 bytes (R212, U4) -/
  | rawTooLong
  /-- a host operation while `FSM` is not `Idle` (R28, R62, U3); raised by the meaning of every host
  operation. `step` lets such an operation wait instead -/
  | busy
  /-- the upload-image request outside an upload: "The host cannot issue it alone" (R191); raised by its
  meaning -/
  | notIssuable
  /-- bytes that are no row of the opcode table, raised by step -/
  | undecodable (e : DecodeError)
  deriving DecidableEq, Repr

/-- The state. -/
structure State where
  /-- the parameter record; fixed (spec/00_scope.md R9) -/
  params : Params
  /-- `ADDR` (R22) -/
  addr : Bytes4
  /-- `DLEN_SEL` (R23) -/
  dlenSel : BitVec 2
  /-- `BAUD_SEL` (R24) -/
  baudSel : BitVec 4
  /-- `CONSUMER_VALID` (R26) -/
  consumerValid : Bool
  /-- `FSM` (R28) -/
  fsm : Fsm
  /-- `SESSION_P` (R30) -/
  sessionP : BitVec 9
  /-- `RXCOUNT` (R31) -/
  rxcount : Count
  /-- `TXBUF` (R32) -/
  txbuf : Memory
  /-- `TXLEN` (R32) -/
  txlen : Nat
  /-- `RXBUF` (R33) -/
  rxbuf : Memory
  /-- `RXLEN` (R33) -/
  rxlen : Nat
  /-- `XBUF` (R34) -/
  xbuf : Memory
  /-- `XLEN` (R34) -/
  xlen : Nat
  /-- `OUT` (R52) -/
  out : List Byte
  /-- `IN`, front first (R53) -/
  inq : List Byte
  /-- the transport's speed (R38, R153) -/
  speed : LineSpeed
  /-- the environment's next choices, one per outward call; after the last, `Config.freeEnv` gives
  them (the model's own field) -/
  env : List EnvChoice
  /-- how many outward calls there have been (the model's own field: the counter of the free values) -/
  envIndex : Nat
  /-- what the outside will present, next first (the model's own field; spec/92_eei_decisions.md D1) -/
  inputs : List Input
  /-- what the operation last issued returned; none while it runs, and after a reset (R14, R290) -/
  result : Option OpResult
  /-- every outward call so far, oldest first (the model's own record) -/
  calls : List Call
  deriving DecidableEq, Repr

/-- The state right after power-on under a binding `p`: R40's reset values, and an outside world of
which nothing is known to have happened. -/
def State.resetWith (p : Params) : State where
  params := p
  addr := p.addrDefault
  dlenSel := p.dlenReset
  baudSel := p.baudReset
  consumerValid := false
  fsm := .idle
  sessionP := 0#9
  rxcount := 0#32
  txbuf := []
  txlen := 0
  rxbuf := []
  rxlen := 0
  xbuf := []
  xlen := 0
  out := []
  inq := []
  speed := .unknown
  env := []
  envIndex := 0
  inputs := []
  result := none
  calls := []

/-- The machine right after reset, under the default binding P0 (R40, R290). -/
def State.reset : State := State.resetWith Params.p0

end Sys2Proof.Machine
end

