-- ==== Sys2Proof/Machine/Flags.lean ====
section
/-! DEFINITION. Flags and error categories. The block has one flag, `CONSUMER_VALID`, and "no condition
codes, no carry or overflow flag and no sticky error flag" (spec/10_state.md R26, R27), so no operation
computes a flag from a result. What decides whether an error flushes is its category
(spec/60_exceptions.md R250). -/

namespace Sys2Proof.Machine

/-- The source's categories; `NotReady` is in none of its five (R250). -/
inductive Category where
  | transport
  | integrity
  | protocol
  | inputValidation
  | notReady
  deriving DecidableEq, Repr

/-- The category of an error kind (R250). -/
def ErrorKind.category : ErrorKind → Category
  | .writeFailure => .transport
  | .partialWrite => .transport
  | .readFailure => .transport
  | .notFound => .transport
  | .shortRead => .transport
  | .reconfigureFailure => .transport
  | .checksumMismatch => .integrity
  | .startMismatch => .protocol
  | .addressMismatch => .protocol
  | .kindMismatch => .protocol
  | .lengthMismatch => .protocol
  | .invalidParameter => .inputValidation
  | .notReady => .notReady

/-- Whether the abort action flushes: categories (b) and (c), and (a) where
`FLUSH_ON_TRANSPORT_ERROR` is set (R262). -/
def flushes (p : Params) (e : ErrorKind) : Bool :=
  match e.category with
  | .integrity => true
  | .protocol => true
  | .transport => p.flushOnTransportError
  | .inputValidation => false
  | .notReady => false

/-- `CONSUMER_VALID` as UPLOAD_IMAGE tests it (R26, R223). -/
def State.consumerRegistered (s : State) : Bool := s.consumerValid

end Sys2Proof.Machine
end

