-- ==== Sys2Proof/Machine/Operands.lean ====
section
/-! DEFINITION. Operands: the legal sets of the enumerated operands, the size a data-length selector
stands for, the request payloads and the acknowledgement sizes of the descriptors
(spec/00_scope.md R10, spec/43_commands.md R180, R181). -/

namespace Sys2Proof.Machine

/-- The legal security levels: 1 to 5 (R10, R187). -/
def legalSecurity (n : Nat) : Bool := decide (1 ≤ n) && decide (n ≤ 5)

/-- The legal data-length selectors: 0 to 3 (R10, R188). -/
def legalDatalen (n : Nat) : Bool := decide (n ≤ 3)

/-- `size(sel) = 32 << sel` (R23): the data-packet length a selector stands for. -/
def packetSize (sel : Nat) : Nat := 32 <<< sel

/-- The legal values of `SESSION_P` while an upload runs (R30). -/
def legalSession (n : Nat) : Bool := n == 32 || n == 64 || n == 128 || n == 256

/-- `ACK_LEN(op)` (R181): payload bytes of the expected acknowledgement, status byte included. The one
value the source settles is 17 for read-system-parameters (R9). -/
def ackLen (p : Params) : CmdOp → Nat
  | .vfyPwd => p.ackVfyPwd
  | .readSysPara => 17
  | .templateNum => p.ackTemplateNum
  | .setBaud => p.ackSetSysPara
  | .setSecurity => p.ackSetSysPara
  | .setDatalen => p.ackSetSysPara
  | .genImage => p.ackGenImage
  | .upImage => p.ackUpImage

/-- The request payload of verify-password (R182). -/
def vfyPwdPayload (p : Params) (pw : Bytes4) : List Byte := p.icVfyPwd :: pw.toList

/-- The one request payload shape of the set commands (R185): code, parameter number, value. -/
def setParamPayload (p : Params) (pn : Byte) (value : Nat) : List Byte :=
  [p.icSetSysPara, pn, BitVec.ofNat 8 value]

/-- The expected lengths RECV_FRAME is defined for: 2 to 258 (R156). -/
abbrev ReceivableLength (expected : Nat) : Prop := 2 ≤ expected ∧ expected ≤ 258

/-- The capacity of `RXBUF` (R33). -/
def rxCapacity : Nat := 267

/-- What VALIDATE accepts as the answer to a command (R143). -/
def acceptAck : List Kind := [.acknowledge]

/-- What VALIDATE accepts while streaming (R143). -/
def acceptTransfer : List Kind := [.data, .endOfData]

end Sys2Proof.Machine
end

