-- ==== Sys2Proof/Machine/Ops.lean ====
section
/-! DEFINITION. The named operations every meaning is built from: memory, registers, the environment's
choices, the transport primitives and the consumer port, taking an error (the abort action) and
ending an operation, the reset event.

An operation runs as `State → Res α`: it completes with a value, raises an error, is abandoned by
the reset event, or stops the machine. -/

namespace Sys2Proof.Machine

/-! ## Memory: the buffers -/

/-- Element `a`, or none where nothing has been written. -/
def Memory.read : Memory → Nat → Option Byte
  | [], _ => none
  | (b, w) :: m, a => if b = a then some w else Memory.read m a

/-- `x[i] <- v` (R13), keeping the indices rising. -/
def Memory.write : Memory → Nat → Byte → Memory
  | [], a, v => [(a, v)]
  | (b, w) :: m, a, v =>
      if a < b then (a, v) :: (b, w) :: m
      else if a = b then (a, v) :: m
      else (b, w) :: Memory.write m a v

/-- `MemWrite(BUF + a, n, s)` (R13). -/
def Memory.writeBytes (m : Memory) (a : Nat) : List Byte → Memory
  | [] => m
  | v :: vs => Memory.writeBytes (Memory.write m a v) (a + 1) vs

/-- `MemRead(BUF + a, n)` (R13): none where an element holds no value. -/
def Memory.readBytes (m : Memory) (a : Nat) : Nat → Option (List Byte)
  | 0 => some []
  | n + 1 =>
      match Memory.read m a with
      | none => none
      | some v =>
          match Memory.readBytes m (a + 1) n with
          | none => none
          | some vs => some (v :: vs)

/-- The canonical form: indices strictly rising. (An unlisted index holds no value, so no listed
entry can equal what an unlisted one reads as.) -/
def Memory.wf : Memory → Bool
  | [] => true
  | (a, _) :: m =>
      (match m with
       | [] => true
       | (b, _) :: _ => decide (a < b)) && Memory.wf m

/-! ## Updates of the state, one name each -/

/-- `ADDR <- a` -/
def State.setAddr (s : State) (a : Bytes4) : State := { s with addr := a }

/-- `DLEN_SEL <- sel`, two bits (R23) -/
def State.setDlenSel (s : State) (sel : Nat) : State := { s with dlenSel := BitVec.ofNat 2 sel }

/-- `BAUD_SEL <- sel`, four bits (R24) -/
def State.setBaudSel (s : State) (sel : Nat) : State := { s with baudSel := BitVec.ofNat 4 sel }

/-- `CONSUMER_VALID <- valid` -/
def State.setConsumerValid (s : State) (valid : Bool) : State := { s with consumerValid := valid }

/-- `FSM <- S` -/
def State.setFsm (s : State) (f : Fsm) : State := { s with fsm := f }

/-- `SESSION_P <- P; RXCOUNT <- 0; FSM <- AwaitingGenerateAck` (R223) -/
def State.openSession (s : State) (P : Nat) : State :=
  { s with sessionP := BitVec.ofNat 9 P, rxcount := 0#32, fsm := .awaitingGenerateAck }

/-- `RXCOUNT <- (RXCOUNT + SESSION_P) mod 2^32` (R31, R222) -/
def State.countFrame (s : State) : State :=
  { s with rxcount := s.rxcount + s.sessionP.setWidth 32 }

/-- `MemWrite(TXBUF + 0, …); TXLEN <- …` (R123) -/
def State.fillTx (s : State) (bs : List Byte) : State :=
  { s with txbuf := s.txbuf.writeBytes 0 bs, txlen := bs.length }

/-- `MemWrite(RXBUF + 0, …); RXLEN <- …` (R156) -/
def State.fillRx (s : State) (bs : List Byte) : State :=
  { s with rxbuf := s.rxbuf.writeBytes 0 bs, rxlen := bs.length }

/-- More bytes than `RXBUF` holds: its 267 elements are written, there is no element for the rest, and
`RXLEN` is a free value it can hold (log entry 23) -/
def State.overfillRx (s : State) (bs : List Byte) : State :=
  { s with
    rxbuf := s.rxbuf.writeBytes 0 (bs.take rxCapacity)
    rxlen := min (Config.freeRxlen s.envIndex) rxCapacity }

/-- `XBUF` and `XLEN` written by EXPAND (R212) -/
def State.fillX (s : State) (bs : List Byte) : State :=
  { s with xbuf := s.xbuf.writeBytes 0 bs, xlen := bs.length }

/-- bytes the transport accepts go to the end of `OUT` (R52) -/
def State.appendOut (s : State) (bs : List Byte) : State := { s with out := s.out ++ bs }

/-- `IN` as the environment or a read leaves it (R53) -/
def State.setIn (s : State) (bs : List Byte) : State := { s with inq := bs }

/-- the transport's speed (R153) -/
def State.setSpeed (s : State) (v : LineSpeed) : State := { s with speed := v }

/-- an outward call is recorded -/
def State.record (s : State) (c : Call) : State := { s with calls := s.calls ++ [c] }

/-- what the operation returned, or none while it runs -/
def State.setResult (s : State) (r : Option OpResult) : State := { s with result := r }

/-- the outside's pending inputs -/
def State.setInputs (s : State) (is : List Input) : State := { s with inputs := is }

/-! ## The environment's choices (R53, R154) -/

/-- The environment's choice at the `k`-th outward call from now: from State's list, and after its end
a free value. -/
def State.choiceAt (s : State) (k : Nat) : EnvChoice :=
  match s.env[k]? with
  | some c => c
  | none => Config.freeEnv (s.envIndex + k)

/-- The choice at the next call. -/
def State.choice (s : State) : EnvChoice := s.choiceAt 0

/-- The next call begins: its choice is used up, and what has arrived by then is in `IN`. -/
def State.beginCall (s : State) : State :=
  { s with env := s.env.drop 1, envIndex := s.envIndex + 1, inq := s.inq ++ s.choice.arrived }

/-! ## The reset event (spec/70_reset_and_hazards.md R290 to R292) -/

/-- Every element of the block takes its value of R40; the running operation is abandoned without a
result; the transport's queue and speed and everything else outside the block stay. `OUT` is "all
bytes the transport has accepted since reset" (R52), so it begins anew. -/
def State.resetEvent (s : State) : State :=
  { State.resetWith s.params with
    inq := s.inq, speed := s.speed, env := s.env, envIndex := s.envIndex,
    inputs := s.inputs, calls := s.calls }

/-! ## How an operation runs -/

/-- The outcome of an operation or of a part of one. -/
inductive Res (α : Type) where
  /-- completes with a value -/
  | ok (a : α) (s : State)
  /-- `raise E` (R13): the operation stops -/
  | raise (e : ErrorKind) (s : State)
  /-- the reset event lands inside a call (R290) -/
  | reset (s : State)
  | fault (f : Fault)
  | refused (r : Refusal)

/-- One part after another; the first that does not complete ends the operation (R263). -/
def Res.andThen {α β : Type} (r : Res α) (k : α → State → Res β) : Res β :=
  match r with
  | .ok a s => k a s
  | .raise e s => .raise e s
  | .reset s => .reset s
  | .fault f => .fault f
  | .refused x => .refused x

/-! ## The transport primitives and the consumer port -/

/-- The outcomes of `T.write` (R150). -/
inductive WriteOutcome where
  | count (c : Nat)
  | error
  deriving DecidableEq, Repr

/-- The outcomes of `T.read` (R151). -/
inductive ReadOutcome where
  | bytes (r : List Byte)
  | error
  deriving DecidableEq, Repr

/-- `T.write(s)` (R150, R52): a prefix goes out, all of it at most; on `Error` some prefix too. -/
def tWrite (bs : List Byte) (s : State) : Res WriteOutcome :=
  let c := s.choice
  let n := min c.count bs.length
  let s1 := (s.beginCall.appendOut (bs.take n)).record (.write bs n c.error)
  if c.reset then .reset s1
  else if c.error then .ok .error s1
  else .ok (.count n) s1

/-- `T.read(n, t)` (R151, R53): takes at most `n` bytes from the front of `IN`, whatever it reports. -/
def tRead (n t : Nat) (s : State) : Res ReadOutcome :=
  let c := s.choice
  let s0 := s.beginCall
  let r := s0.inq.take (min c.count n)
  let s1 := (s0.setIn (s0.inq.drop (min c.count n))).record (.read n t r c.error)
  if c.reset then .reset s1
  else if c.error then .ok .error s1
  else .ok (.bytes r) s1

/-- The state after `T.flush()`: `IN` is empty (R152, R65). -/
def State.flushed (s : State) : State := (s.beginCall.setIn []).record .flush

/-- `T.flush()` (R152): no result, cannot fail. -/
def tFlush (s : State) : Res Unit :=
  if s.choice.reset then .reset s.flushed else .ok () s.flushed

/-- The speed `m` stands for: of a number that is no baud selector a free value (R153, log entry 23). -/
def State.speedFor (s : State) (m : Nat) : LineSpeed :=
  if legalBaud m then .ofSelector m else Config.freeSpeed s.envIndex

/-- `T.reconfigure_speed(m)` (R153): true is `Done`; on `Error` the speed is unknown. -/
def tReconfigure (m : Nat) (s : State) : Res Bool :=
  let c := s.choice
  let v := if c.error || c.reset then LineSpeed.unknown else s.speedFor m
  let s1 := (s.beginCall.setSpeed v).record (.reconfigure m c.error)
  if c.reset then .reset s1
  else .ok (!c.error) s1

/-- `CONSUMER.deliver(s, n)` (R221): an output event that carries the bytes by value and always returns. -/
def deliver (bs : List Byte) (s : State) : Res Unit :=
  let s1 := s.beginCall.record (.deliver bs)
  if s.choice.reset then .reset s1 else .ok () s1

/-- The deliveries so far, oldest first: concatenated they are the image (R221). -/
def deliveriesOf : List Call → List (List Byte)
  | [] => []
  | .deliver bs :: cs => bs :: deliveriesOf cs
  | .write _ _ _ :: cs => deliveriesOf cs
  | .read _ _ _ _ :: cs => deliveriesOf cs
  | .flush :: cs => deliveriesOf cs
  | .reconfigure _ _ :: cs => deliveriesOf cs

/-! ## Taking an error, and ending an operation -/

/-- TAKING AN ERROR: the abort action (R262) and the return of `Err(e)`. It flushes where the category
asks for it, then `FSM <- Idle`; nothing is saved and nothing else changes. A reset may land in the flush.
THE RETURN from an error is no operation: there is "no return instruction and nothing to restore"
(R265); the block is in `Idle` and the next operation simply runs. -/
def takeError (e : ErrorKind) (s : State) : State :=
  if flushes s.params e then
    if s.choice.reset then s.flushed.resetEvent
    else (s.flushed.setFsm .idle).setResult (some (.err e))
  else (s.setFsm .idle).setResult (some (.err e))

/-- How an operation ends: with `Ok`, with no result yet (a running upload), with an error taken, or
abandoned by a reset. -/
def finishRun (r : Res (Option OpValue)) : Host.Outcome State Fault Refusal :=
  match r with
  | .ok (some v) s => .next (s.setResult (some (.ok v)))
  | .ok none s => .next (s.setResult none)
  | .raise e s => .next (takeError e s)
  | .reset s => .next s.resetEvent
  | .fault f => .fault f
  | .refused x => .refused x

/-- An operation that returns when it completes. -/
def finish (r : Res OpValue) : Host.Outcome State Fault Refusal :=
  finishRun (r.andThen fun v s => .ok (some v) s)

/-- A host operation runs only while `FSM = Idle` (R28, R62, U3). -/
def whenIdle (s : State) (r : Host.Outcome State Fault Refusal) : Host.Outcome State Fault Refusal :=
  if s.fsm = .idle then r else .refused .busy

end Sys2Proof.Machine
end

