-- ==== Sys2Proof/Machine/Codec.lean ====
section
/-! DEFINITION. The frame codec and the header validator: CHECKSUM, ENCODE, DECODE, VERIFY_CHECKSUM,
VALIDATE (spec/40_frame_codec.md, spec/41_header_validator.md). -/

namespace Sys2Proof.Machine

/-- ENCODE into `TXBUF` (R122, R123). It never fails; a payload that does not fit has no meaning. -/
def encodeTx (kind : Kind) (payload : List Byte) (addr : Bytes4) (s : State) : Res (List Byte) :=
  if payload.length ≤ s.params.maxPayload ∧ payload.length ≤ maxLength16 then
    let s1 := s.fillTx (encodeFrame s.params kind payload addr)
    match s1.txbuf.readBytes 0 s1.txlen with
    | some bs => .ok bs s1
    | none => .fault .unwrittenElement
  else .refused .payloadTooLong

/-- The start check (R141). -/
def startMatches (p : Params) (buf : List Byte) : Bool :=
  byteAt buf 0 == p.start0 && byteAt buf 1 == p.start1

/-- The address check (R142): exact, with no wildcard. -/
def addressMatches (addr : Bytes4) (buf : List Byte) : Bool :=
  byteAt buf 2 == addr.b0 && byteAt buf 3 == addr.b1 && byteAt buf 4 == addr.b2
    && byteAt buf 5 == addr.b3

/-- The kind check (R143): the byte names a kind, and that kind is accepted now. -/
def kindAccepted (p : Params) (accept : List Kind) (buf : List Byte) : Bool :=
  match kindOf p (byteAt buf 6) with
  | none => false
  | some k => decide (k ∈ accept)

/-- The length check (R144). -/
def lengthMatches (expected : Nat) (buf : List Byte) : Bool :=
  (be16 (byteAt buf 7) (byteAt buf 8)).toNat == expected

/-- VALIDATE on a buffer of at least 9 bytes (R140): none is `Ok`; the first failing check, in the order
start, address, kind, length, gives the error (R147). -/
def validateHeader (p : Params) (addr : Bytes4) (buf : List Byte) (accept : List Kind)
    (expected : Nat) : Option ErrorKind :=
  if !startMatches p buf then some .startMismatch
  else if !addressMatches addr buf then some .addressMismatch
  else if !kindAccepted p accept buf then some .kindMismatch
  else if !lengthMatches expected buf then some .lengthMismatch
  else none

/-- OP.CHECKSUM (R120). It runs in every state of `FSM`, as an internal step: R100's table does not mark it H,
R100's prose does, and following the table is the model's choice (log entry 21). Of an `L` that is not the
payload's length, or above 65533, R120 states no checksum: a free value (log entry 23). -/
def execOpChecksum (kind : Kind) (L : Nat) (payload : List Byte) (s : State) :
    Host.Outcome State Fault Refusal :=
  finish (.ok (.checksum
    (if L = payload.length ∧ L ≤ maxLength16 then checksum s.params kind L payload
     else Config.freeChecksum s.params kind L payload)) s)

/-- OP.ENCODE (R123). -/
def execOpEncode (kind : Kind) (payload : List Byte) (addr : Bytes4) (s : State) :
    Host.Outcome State Fault Refusal :=
  whenIdle s (finish ((encodeTx kind payload addr s).andThen fun bs s => .ok (.bytes bs) s))

/-- OP.DECODE (R125). -/
def execOpDecode (buf : List Byte) (s : State) : Host.Outcome State Fault Refusal :=
  whenIdle s
    (if 11 ≤ buf.length then finish (.ok (.fields (splitFrame buf)) s)
     else .refused .bufferTooShort)

/-- OP.VERIFY_CHECKSUM (R126). -/
def execOpVerifyChecksum (buf : List Byte) (s : State) : Host.Outcome State Fault Refusal :=
  whenIdle s
    (if 11 ≤ buf.length then finish (.ok (.verdict (verifyChecksum buf)) s)
     else .refused .bufferTooShort)

/-- OP.VALIDATE (R140). An error is its result and ends nothing (R253): no abort action, no flush. R140 makes
`expected` a u16; a larger number, which no `length` field equals, is compared all the same and gives
LengthMismatch: the model's choice (log entry 22). -/
def execOpValidate (buf : List Byte) (accept : List Kind) (expected : Nat) (s : State) :
    Host.Outcome State Fault Refusal :=
  whenIdle s
    (if 9 ≤ buf.length then
      match validateHeader s.params s.addr buf accept expected with
      | none => finish (.ok .done s)
      | some e => .next (s.setResult (some (.err e)))
     else .refused .bufferTooShort)

end Sys2Proof.Machine
end

