-- ==== Sys2Proof/Machine/Transport.lean ====
section
/-! DEFINITION. The transport primitives as instructions, SEND_FRAME, RECV_FRAME and EXCHANGE
(spec/42_transport_exchange.md). The host cannot issue these by itself (R100); they are the steps its
operations are built from. -/

namespace Sys2Proof.Machine

/-- Encode a frame for `addr` and hand it to the transport whole, in one call (R60, R155). -/
def sendTo (kind : Kind) (payload : List Byte) (addr : Bytes4) (s : State) : Res Unit :=
  (encodeTx kind payload addr s).andThen fun _ s =>
    match s.txbuf.readBytes 0 s.txlen with
    | none => .fault .unwrittenElement
    | some frame =>
        (tWrite frame s).andThen fun r s =>
          match r with
          | .error => .raise .writeFailure s
          | .count c => if c < s.txlen then .raise .partialWrite s else .ok () s

/-- SEND_FRAME (R155): to the address `ADDR` holds. -/
def sendFrame (kind : Kind) (payload : List Byte) (s : State) : Res Unit :=
  sendTo kind payload s.addr s

/-- What RECV_FRAME does with a whole buffer: the checksum's verdict, the header check, and the result (R146,
R156). -/
def judgeFrame (verdict : Bool) (payload buf : List Byte) (accept : List Kind) (expected : Nat)
    (s : State) : Res (Kind × List Byte) :=
  if verdict then
    match validateHeader s.params s.addr buf accept expected with
    | some e => .raise e s
    | none =>
        match kindOf s.params (byteAt buf 6) with
        | some k => .ok (k, payload) s
        | none => .raise .kindMismatch s
  else .raise .checksumMismatch s

/-- The checks on `RXBUF[0..N-1]`, checksum before header, and the split (R146, R156). -/
def acceptFrame (buf : List Byte) (accept : List Kind) (expected : Nat) (s : State) :
    Res (Kind × List Byte) :=
  judgeFrame (verifyChecksum buf) (splitFrame buf).payload buf accept expected s

/-- The bytes of a read for an expected length outside 2 to 258: too few to hold a checksum, or more than
`RXBUF` holds. They go into `RXBUF` as far as it reaches and the header is checked as always; the checksum's
verdict and the payload, of which no rule speaks here, are free values (log entry 23). -/
def acceptUnsized (buf : List Byte) (accept : List Kind) (expected : Nat) (s : State) :
    Res (Kind × List Byte) :=
  judgeFrame (Config.freeVerdict s.envIndex) (Config.freePayload s.envIndex) buf accept expected
    (if buf.length ≤ rxCapacity then s.fillRx buf else s.overfillRx buf)

/-- RECV_FRAME (R156): one read of exactly the size expected (R60), the size check, then
`acceptFrame` on what `RXBUF` holds, or `acceptUnsized` for an expected length outside 2 to 258. -/
def recvFrame (accept : List Kind) (expected : Nat) (t : Nat) (s : State) :
    Res (Kind × List Byte) :=
  let N := headerSize + expected
  (tRead N t s).andThen fun r s =>
    match r with
    | .error => .raise .readFailure s
    | .bytes b =>
        if b.length = 0 then .raise .notFound s
        else if b.length < N then .raise .shortRead s
        else if ReceivableLength expected then
          let s := s.fillRx b
          match s.rxbuf.readBytes 0 s.rxlen with
          | none => .fault .unwrittenElement
          | some buf => acceptFrame buf accept expected s
        else acceptUnsized b accept expected s

/-- EXCHANGE with the command frame addressed to `addr` (R157): one write, one read, and the status byte
apart from the other fields. An acknowledgement without a status byte, which only a binding that is not legal
expects, gives a free status (log entry 23). -/
def exchangeTo (addr : Bytes4) (op : CmdOp) (payload : List Byte) (s : State) :
    Res (Byte × List Byte) :=
  (sendTo .command payload addr s).andThen fun _ s =>
    (recvFrame acceptAck (ackLen s.params op + checksumSize) (Config.timeout op) s).andThen
      fun answer s =>
        match answer.2 with
        | status :: fields => .ok (status, fields) s
        | [] => .ok (Config.freeAckByte s.envIndex 0, []) s

/-- EXCHANGE (R157). -/
def exchange (op : CmdOp) (payload : List Byte) (s : State) : Res (Byte × List Byte) :=
  exchangeTo s.addr op payload s

/-- OP.T.write (R150). -/
def execOpTWrite (bytes : List Byte) (s : State) : Host.Outcome State Fault Refusal :=
  finish ((tWrite bytes s).andThen fun r s =>
    match r with
    | .count c => .ok (.written c) s
    | .error => .ok .transportError s)

/-- OP.T.read (R151). -/
def execOpTRead (n t : Nat) (s : State) : Host.Outcome State Fault Refusal :=
  finish ((tRead n t s).andThen fun r s =>
    match r with
    | .bytes b => .ok (.received b) s
    | .error => .ok .transportError s)

/-- OP.T.flush (R152). -/
def execOpTFlush (s : State) : Host.Outcome State Fault Refusal :=
  finish ((tFlush s).andThen fun _ s => .ok .done s)

/-- OP.T.reconfigure_speed (R153). A number that is no baud selector is passed on all the same (log entry 23). -/
def execOpTReconfigureSpeed (m : Nat) (s : State) : Host.Outcome State Fault Refusal :=
  finish ((tReconfigure m s).andThen fun done s =>
    .ok (if done then .done else .transportError) s)

/-- OP.SEND_FRAME (R155). R155 gives it any kind, while the block's own operations ask for Command alone
(R91); presented by itself it sends a frame of whichever kind it is given: the model's choice (log entry 24).
It reads no answer, so the next command can go out before one has come, which R64 (point 5) has the block
never do, and no reconfiguration follows a set-baud command sent this way (R66): the model's choices (log
entries 27 and 28). -/
def execOpSendFrame (kind : Kind) (payload : List Byte) (s : State) :
    Host.Outcome State Fault Refusal :=
  finish ((sendFrame kind payload s).andThen fun _ s => .ok .done s)

/-- OP.RECV_FRAME (R156). -/
def execOpRecvFrame (accept : List Kind) (expected t : Nat) (s : State) :
    Host.Outcome State Fault Refusal :=
  finish ((recvFrame accept expected t s).andThen fun kp s => .ok (.frame kp.1 kp.2) s)

/-- OP.EXCHANGE (R157). Presented by itself with a set-baud payload it is followed by no reconfiguration, and
later transport calls run, where R66, R301 and U8 have the transport not used again before one: the model's
choice (log entry 28). -/
def execOpExchange (op : CmdOp) (payload : List Byte) (s : State) :
    Host.Outcome State Fault Refusal :=
  finish ((exchange op payload s).andThen fun sf s => .ok (.exchanged sf.1 sf.2) s)

end Sys2Proof.Machine
end

