-- ==== Sys2Proof/Machine/Commands.lean ====
section
/-! DEFINITION. The commands (spec/43_commands.md): each as a block operation (OP.*), which sends to
`ADDR`, and as the request frame of the opcode table, which goes out to the address it carries. The
computed fields of a frame that goes out, `length` and `checksum`, are always the ones ENCODE computes
(R93, R123), so a request's `cks` operand plays no part. -/

namespace Sys2Proof.Machine

/-- A command whose result is the status byte (R182, R187, R189). -/
def statusCommand (addr : Bytes4) (op : CmdOp) (payload : List Byte) (s : State) : Res OpValue :=
  (exchangeTo addr op payload s).andThen fun sf s => .ok (.status sf.1) s

/-- READ_SYS_PARA (R183): the snapshot is returned and stored nowhere; a wrong identifier is a warning. -/
def readSysParaCommand (addr : Bytes4) (s : State) : Res OpValue :=
  (exchangeTo addr .readSysPara [s.params.icReadSysPara] s).andThen fun sf s =>
    if sf.1 = s.params.stSuccess then
      let body := SysParams.ofBytes sf.2
      .ok (.sysPara sf.1 (some (body, decide (body.identifier = s.params.sysIdConst)))) s
    else .ok (.sysPara sf.1 none) s

/-- TEMPLATE_NUM (R184). Under a binding that is not legal a count byte can be missing; it is then a free
value (log entry 23). -/
def templateNumCommand (addr : Bytes4) (s : State) : Res OpValue :=
  (exchangeTo addr .templateNum [s.params.icTemplateNum] s).andThen fun sf s =>
    if sf.1 = s.params.stSuccess then
      .ok (.templateNum sf.1 (some (be16 (sf.2.getD 0 (Config.freeAckByte s.envIndex 1))
        (sf.2.getD 1 (Config.freeAckByte s.envIndex 2))))) s
    else .ok (.templateNum sf.1 none) s

/-- SET_BAUD (R186): the operand check before any I/O, the exchange at the old speed, and only after a
success status `BAUD_SEL` and the transport's speed. -/
def setBaudCommand (addr : Bytes4) (sel : Nat) (s : State) : Res OpValue :=
  if legalBaud sel then
    (exchangeTo addr .setBaud (setParamPayload s.params s.params.pnBaud sel) s).andThen fun sf s =>
      if sf.1 = s.params.stSuccess then
        (tReconfigure sel (s.setBaudSel sel)).andThen fun done s =>
          if done then .ok (.status sf.1) s else .raise .reconfigureFailure s
      else .ok (.status sf.1) s
  else .raise .invalidParameter s

/-- SET_SECURITY (R187): writes no register (R25). -/
def setSecurityCommand (addr : Bytes4) (level : Nat) (s : State) : Res OpValue :=
  if legalSecurity level then
    statusCommand addr .setSecurity (setParamPayload s.params s.params.pnSecurity level) s
  else .raise .invalidParameter s

/-- SET_DATALEN (R188): `DLEN_SEL` changes only on a success status; the selector goes out unchanged (R94). -/
def setDatalenCommand (addr : Bytes4) (sel : Nat) (s : State) : Res OpValue :=
  if legalDatalen sel then
    (exchangeTo addr .setDatalen (setParamPayload s.params s.params.pnDatalen sel) s).andThen
      fun sf s =>
        if sf.1 = s.params.stSuccess then .ok (.status sf.1) (s.setDlenSel sel)
        else .ok (.status sf.1) s
  else .raise .invalidParameter s

/-! ## Block operations -/

/-- OP.VFY_PWD (R182). -/
def execOpVfyPwd (pw : Bytes4) (s : State) : Host.Outcome State Fault Refusal :=
  whenIdle s (finish (statusCommand s.addr .vfyPwd (vfyPwdPayload s.params pw) s))

/-- OP.READ_SYS_PARA (R183). -/
def execOpReadSysPara (s : State) : Host.Outcome State Fault Refusal :=
  whenIdle s (finish (readSysParaCommand s.addr s))

/-- OP.TEMPLATE_NUM (R184). -/
def execOpTemplateNum (s : State) : Host.Outcome State Fault Refusal :=
  whenIdle s (finish (templateNumCommand s.addr s))

/-- OP.SET_BAUD (R186). -/
def execOpSetBaud (sel : Nat) (s : State) : Host.Outcome State Fault Refusal :=
  whenIdle s (finish (setBaudCommand s.addr sel s))

/-- OP.SET_SECURITY (R187). -/
def execOpSetSecurity (level : Nat) (s : State) : Host.Outcome State Fault Refusal :=
  whenIdle s (finish (setSecurityCommand s.addr level s))

/-- OP.SET_DATALEN (R188). -/
def execOpSetDatalen (sel : Nat) (s : State) : Host.Outcome State Fault Refusal :=
  whenIdle s (finish (setDatalenCommand s.addr sel s))

/-- OP.GEN_IMAGE (R189). -/
def execOpGenImage (s : State) : Host.Outcome State Fault Refusal :=
  whenIdle s (finish (statusCommand s.addr .genImage [s.params.icGenImage] s))

/-- OP.SET_ADDR (R190): no transport call. -/
def execOpSetAddr (a : Bytes4) (s : State) : Host.Outcome State Fault Refusal :=
  whenIdle s (finish (.ok .done (s.setAddr a)))

/-! ## Request frames -/

/-- VFY_PWD's request (R182). -/
def execVfyPwd (addr pw : Bytes4) (s : State) : Host.Outcome State Fault Refusal :=
  whenIdle s (finish (statusCommand addr .vfyPwd (vfyPwdPayload s.params pw) s))

/-- READ_SYS_PARA's request (R183). -/
def execReadSysPara (addr : Bytes4) (s : State) : Host.Outcome State Fault Refusal :=
  whenIdle s (finish (readSysParaCommand addr s))

/-- TEMPLATE_NUM's request (R184). -/
def execTemplateNum (addr : Bytes4) (s : State) : Host.Outcome State Fault Refusal :=
  whenIdle s (finish (templateNumCommand addr s))

/-- SET_BAUD's request (R186). -/
def execSetBaud (addr : Bytes4) (sel : Byte) (s : State) : Host.Outcome State Fault Refusal :=
  whenIdle s (finish (setBaudCommand addr sel.toNat s))

/-- SET_SECURITY's request (R187). -/
def execSetSecurity (addr : Bytes4) (level : Byte) (s : State) : Host.Outcome State Fault Refusal :=
  whenIdle s (finish (setSecurityCommand addr level.toNat s))

/-- SET_DATALEN's request (R188). -/
def execSetDatalen (addr : Bytes4) (sel : Byte) (s : State) : Host.Outcome State Fault Refusal :=
  whenIdle s (finish (setDatalenCommand addr sel.toNat s))

/-- GEN_IMAGE's request (R189). -/
def execGenImage (addr : Bytes4) (s : State) : Host.Outcome State Fault Refusal :=
  whenIdle s (finish (statusCommand addr .genImage [s.params.icGenImage] s))

end Sys2Proof.Machine
end

