-- ==== Sys2Proof/Machine/Expander.lean ====
section
/-! DEFINITION. The nibble expander as operations: EXPAND_BYTE, EXPAND (spec/44_nibble_expander.md). -/

namespace Sys2Proof.Machine

/-- EXPAND into `XBUF` (R212): what lies at `XLEN` and above stays. More than 256 bytes have no meaning. -/
def expandX (raw : List Byte) (s : State) : Res (List Byte) :=
  if raw.length ≤ 256 then
    let s1 := s.fillX (expandBytes raw)
    match s1.xbuf.readBytes 0 s1.xlen with
    | some bs => .ok bs s1
    | none => .fault .unwrittenElement
  else .refused .rawTooLong

/-- OP.EXPAND_BYTE (R210). -/
def execOpExpandByte (b : Byte) (s : State) : Host.Outcome State Fault Refusal :=
  finish (.ok (.samples (expandByte b).1 (expandByte b).2) s)

/-- OP.EXPAND (R212). -/
def execOpExpand (raw : List Byte) (s : State) : Host.Outcome State Fault Refusal :=
  whenIdle s (finish ((expandX raw s).andThen fun bs s => .ok (.bytes bs) s))

end Sys2Proof.Machine
end

