-- ==== Sys2Proof/Machine/Upload.lean ====
section
/-! DEFINITION. The multi-frame reassembly state machine (spec/45_bulk_transfer.md). An upload takes one
step per transition of R229, so that a stream of Data frames without an end is an infinite run (R231):
UPLOAD_IMAGE itself is the transition out of `Idle`, and `advance` is the next one. -/

namespace Sys2Proof.Machine

/-- R223: `NotReady` first, then `InvalidParameter`, both before any I/O; else the session is created. -/
def openUpload (sel : Nat) (s : State) : Res (Option OpValue) :=
  if s.consumerRegistered then
    if legalDatalen sel then .ok none (s.openSession (packetSize sel))
    else .raise .invalidParameter s
  else .raise .notReady s

/-- R224: `EXCHANGE(UP_IMAGE, [IC_UP_IMAGE])` with the request addressed to `addr`, and the three ways
out of `AwaitingGenerateAck`. -/
def awaitAck (addr : Bytes4) (s : State) : Res (Option OpValue) :=
  (exchangeTo addr .upImage [s.params.icUpImage] s).andThen fun sf s =>
    if sf.1 = s.params.stSuccess then .ok none (s.setFsm .streamingFrames)
    else .ok (some (.status sf.1)) (s.setFsm .idle)

/-- R225 to R228: one iteration in `StreamingFrames`. The frame is received and checked, then expanded,
counted and delivered; EndOfData ends the upload after its own delivery. -/
def streamFrame (s : State) : Res (Option OpValue) :=
  (recvFrame acceptTransfer (s.sessionP.toNat + checksumSize) Config.timeoutStream s).andThen
    fun kp s =>
      (expandX kp.2 s).andThen fun _ s =>
        let s := s.countFrame
        match s.xbuf.readBytes 0 s.xlen with
        | none => .fault .unwrittenElement
        | some bs =>
            (deliver bs s).andThen fun _ s =>
              match kp.1 with
              | .endOfData => .ok (some (.status s.params.stSuccess)) (s.setFsm .idle)
              | .data => .ok none s
              | .command => .ok none s
              | .acknowledge => .ok none s

/-- The block goes on by itself: the next transition of a running upload; in `Idle` it "does nothing on
its own" (R229, R291). -/
def advance (s : State) : Host.Outcome State Fault Refusal :=
  match s.fsm with
  | .idle => .next s
  | .awaitingGenerateAck => finishRun (awaitAck s.addr s)
  | .streamingFrames => finishRun (streamFrame s)

/-- OP.REGISTER_CONSUMER (R220). -/
def execOpRegisterConsumer (valid : Bool) (s : State) : Host.Outcome State Fault Refusal :=
  whenIdle s (finish (.ok .done (s.setConsumerValid valid)))

/-- OP.UPLOAD_IMAGE (R222, R223): the transition out of `Idle`; `advance` makes the others. -/
def execOpUploadImage (sel : Nat) (s : State) : Host.Outcome State Fault Refusal :=
  whenIdle s (finishRun (openUpload sel s))

/-- OP.READ_RXCOUNT (R230). -/
def execOpReadRxcount (s : State) : Host.Outcome State Fault Refusal :=
  whenIdle s (finish (.ok (.rxcount s.rxcount) s))

/-- The upload-image request (R191, R224): in `AwaitingGenerateAck`, the one state in which it is sent, it is
that state's exchange, addressed as the request is. In `Idle` it has no meaning: "The host cannot issue it
alone". While frames stream the block is busy with the upload that sent it. -/
def execUpImage (addr : Bytes4) (s : State) : Host.Outcome State Fault Refusal :=
  match s.fsm with
  | .idle => .refused .notIssuable
  | .awaitingGenerateAck => finishRun (awaitAck addr s)
  | .streamingFrames => .refused .busy

end Sys2Proof.Machine
end

