-- ==== Sys2Proof/Machine/Frames.lean ====
section
/-! DEFINITION. The frame rows of the opcode table. A Command frame is the block's to send (R91): its
meaning is sending it. Every other frame comes from the module: its meaning is its arrival. Its bytes,
damaged or not, go to the back of `IN` (R53), where they wait (R255, R306) unless an upload is running,
whose next transition then reads (R224, R225). -/

namespace Sys2Proof.Machine

/-- The module puts bytes into `IN`, and a running upload goes on. -/
def arrive (bs : List Byte) (s : State) : Host.Outcome State Fault Refusal :=
  advance (s.setIn (s.inq ++ bs))

/-- FRAME.COMMAND (R80, R91, R155): encoded for the address it carries and sent; `length` and `checksum`
are the computed ones (R93). Any payload goes out, that of the upload-image request included, with no
session opened and no answer read, where R191 has only UPLOAD_IMAGE send that request: the model's choice
(log entries 9 and 10). So are two more things that follow from reading no answer: the next command can go
out before this one's answer, which R64 (point 5) has the block never do (log entry 27), and after a set-baud
payload no reconfiguration follows and later transport calls run (R66, R301, U8; log entry 28). -/
def execFrameCommand (addr : Bytes4) (payload : List Byte) (s : State) :
    Host.Outcome State Fault Refusal :=
  whenIdle s (finish ((sendTo .command payload addr s).andThen fun _ s => .ok .done s))

/-- FRAME.DATA (R89, R225, R226). -/
def execFrameData (addr : Bytes4) (len : Half) (payload : List Byte) (cks : Half) (s : State) :
    Host.Outcome State Fault Refusal :=
  arrive (frameBytes s.params .data addr len payload cks) s

/-- FRAME.ACK (R88). -/
def execFrameAck (addr : Bytes4) (len : Half) (payload : List Byte) (cks : Half) (s : State) :
    Host.Outcome State Fault Refusal :=
  arrive (frameBytes s.params .acknowledge addr len payload cks) s

/-- FRAME.END (R89, R225, R227). -/
def execFrameEnd (addr : Bytes4) (len : Half) (payload : List Byte) (cks : Half) (s : State) :
    Host.Outcome State Fault Refusal :=
  arrive (frameBytes s.params .endOfData addr len payload cks) s

/-- ACK.STATUS (R181): status alone. -/
def execAckStatus (addr : Bytes4) (status : Byte) (cks : Half) (s : State) :
    Host.Outcome State Fault Refusal :=
  arrive (frameBytes s.params .acknowledge addr 3#16 [status] cks) s

/-- ACK.TEMPLATE_NUM (R184): status and count. -/
def execAckTemplateNum (addr : Bytes4) (status : Byte) (count cks : Half) (s : State) :
    Host.Outcome State Fault Refusal :=
  arrive (frameBytes s.params .acknowledge addr 5#16 [status, hiByte count, loByte count] cks) s

/-- ACK.SYS_PARA (R90): status and the 16-byte body. -/
def execAckSysPara (addr : Bytes4) (status : Byte) (body : SysParams) (cks : Half) (s : State) :
    Host.Outcome State Fault Refusal :=
  arrive (frameBytes s.params .acknowledge addr 19#16 (status :: body.toBytes) cks) s

end Sys2Proof.Machine
end

