-- ==== Sys2Proof/Machine/Dispatch.lean ====
section
/-! DEFINITION. One arm per row of the opcode table, each one direct call of the row's meaning. -/

namespace Sys2Proof.Machine

def exec (i : Instr) (s : State) : Host.Outcome State Fault Refusal :=
  match i with
  | .frameCommand addr _ payload _ => Sys2Proof.Machine.execFrameCommand addr payload s
  | .frameData addr len payload cks => Sys2Proof.Machine.execFrameData addr len payload cks s
  | .frameAck addr len payload cks => Sys2Proof.Machine.execFrameAck addr len payload cks s
  | .frameEnd addr len payload cks => Sys2Proof.Machine.execFrameEnd addr len payload cks s
  | .vfyPwd addr pw _ => Sys2Proof.Machine.execVfyPwd addr pw s
  | .readSysPara addr _ => Sys2Proof.Machine.execReadSysPara addr s
  | .templateNum addr _ => Sys2Proof.Machine.execTemplateNum addr s
  | .setBaud addr sel _ => Sys2Proof.Machine.execSetBaud addr sel s
  | .setSecurity addr level _ => Sys2Proof.Machine.execSetSecurity addr level s
  | .setDatalen addr sel _ => Sys2Proof.Machine.execSetDatalen addr sel s
  | .genImage addr _ => Sys2Proof.Machine.execGenImage addr s
  | .upImage addr _ => Sys2Proof.Machine.execUpImage addr s
  | .ackStatus addr status cks => Sys2Proof.Machine.execAckStatus addr status cks s
  | .ackTemplateNum addr status count cks => Sys2Proof.Machine.execAckTemplateNum addr status count cks s
  | .ackSysPara addr status body cks => Sys2Proof.Machine.execAckSysPara addr status body cks s
  | .opChecksum kind L payload => Sys2Proof.Machine.execOpChecksum kind L payload s
  | .opEncode kind payload addr => Sys2Proof.Machine.execOpEncode kind payload addr s
  | .opDecode buf => Sys2Proof.Machine.execOpDecode buf s
  | .opVerifyChecksum buf => Sys2Proof.Machine.execOpVerifyChecksum buf s
  | .opValidate buf accept expected => Sys2Proof.Machine.execOpValidate buf accept expected s
  | .opTWrite bytes => Sys2Proof.Machine.execOpTWrite bytes s
  | .opTRead n t => Sys2Proof.Machine.execOpTRead n t s
  | .opTFlush => Sys2Proof.Machine.execOpTFlush s
  | .opTReconfigureSpeed m => Sys2Proof.Machine.execOpTReconfigureSpeed m s
  | .opSendFrame kind payload => Sys2Proof.Machine.execOpSendFrame kind payload s
  | .opRecvFrame accept expected t => Sys2Proof.Machine.execOpRecvFrame accept expected t s
  | .opExchange op payload => Sys2Proof.Machine.execOpExchange op payload s
  | .opVfyPwd pw => Sys2Proof.Machine.execOpVfyPwd pw s
  | .opReadSysPara => Sys2Proof.Machine.execOpReadSysPara s
  | .opTemplateNum => Sys2Proof.Machine.execOpTemplateNum s
  | .opSetBaud sel => Sys2Proof.Machine.execOpSetBaud sel s
  | .opSetSecurity level => Sys2Proof.Machine.execOpSetSecurity level s
  | .opSetDatalen sel => Sys2Proof.Machine.execOpSetDatalen sel s
  | .opGenImage => Sys2Proof.Machine.execOpGenImage s
  | .opSetAddr a => Sys2Proof.Machine.execOpSetAddr a s
  | .opExpandByte b => Sys2Proof.Machine.execOpExpandByte b s
  | .opExpand raw => Sys2Proof.Machine.execOpExpand raw s
  | .opRegisterConsumer valid => Sys2Proof.Machine.execOpRegisterConsumer valid s
  | .opUploadImage sel => Sys2Proof.Machine.execOpUploadImage sel s
  | .opReadRxcount => Sys2Proof.Machine.execOpReadRxcount s

end Sys2Proof.Machine
end

