-- ==== Sys2Proof/Machine/Fetch.lean ====
section
/-! DEFINITION. What `step` asks before it runs an instruction: whether the block can take it now. -/

namespace Sys2Proof.Machine

/-- The block takes a pending instruction now: a frame from the module at any time; the upload-image request
unless frames stream (in `AwaitingGenerateAck` it is that state's exchange, in `Idle` its meaning refuses it,
R191); anything else only in `Idle`. What it does not take waits until the running operation has
returned (R62, U3). -/
def State.takes (s : State) (i : Instr) : Bool :=
  match i.source with
  | .line => true
  | .upload => decide (s.fsm ≠ .streamingFrames)
  | .block => decide (s.fsm = .idle)

/-- The state in which the block takes an instruction and runs it: `Idle`, but for a frame of the module's,
which it takes in any state, and the upload-image request, before which UPLOAD_IMAGE has opened a
session (R191, R223), here for the selector `DLEN_SEL` holds. -/
def State.readyFor (s : State) (i : Instr) : State :=
  match i.source with
  | .line => s
  | .upload =>
      if s.fsm = .awaitingGenerateAck then s
      else (s.setConsumerValid true).openSession (packetSize s.dlenSel.toNat)
  | .block => s.setFsm .idle

/-- The same for the bytes of an instruction; bytes that are none are refused in any state. -/
def State.readyForBytes (s : State) (bs : List Byte) : State :=
  match decode s.params bs with
  | .ok i => s.readyFor i
  | .error _ => s

end Sys2Proof.Machine
end

