-- ==== Sys2Proof/Machine/Step.lean ====
section
/-! DEFINITION. One step: the block takes what the outside presents next. The block fetches no
instructions (spec/20_memory.md R67) and how the host selects an operation is not specified
(spec/92_eei_decisions.md D1), so the model's instruction port is the list `inputs`. -/

namespace Sys2Proof.Machine

/-- A pending instruction runs if the block takes it now; else it stays pending and the running upload
makes its next transition (R62, R229). -/
def runPending (i : Instr) (rest : List Input) (s : State) : Host.Outcome State Fault Refusal :=
  if s.takes i then exec i (s.setInputs rest) else advance s

/-- One step of the machine. With nothing pending a running upload goes on and an idle block waits
(R291). The reset event lands in any state (R290). -/
def step (s : State) : Host.Outcome State Fault Refusal :=
  match s.inputs with
  | [] => advance s
  | .reset :: rest => .next (s.setInputs rest).resetEvent
  | .issue i :: rest => runPending i rest s
  | .code bs :: rest =>
      match decode s.params bs with
      | .ok i => runPending i rest s
      | .error e => .refused (.undecodable e)
  | .line bs :: rest => arrive bs (s.setInputs rest)

/-- `s` with the instruction whose bits are `w` presented next, in a state in which the block takes it. -/
def State.withFetchWord (s : State) (nbits w : Nat) : State :=
  (s.readyForBytes (layoutWord nbits w)).setInputs (.code (layoutWord nbits w) :: s.inputs)

end Sys2Proof.Machine
end

