-- ==== Sys2Proof/Safety.lean ====
section
/-! DEFINITION. The terms claims are stated in: what the environment does at the next calls, the state an
undisturbed exchange or reception leaves, and the invariant of the machine. -/

namespace Sys2Proof

/-- The environment lets a call that moves `n` bytes through whole: no reset, no `Error`, no cut. -/
def EnvChoice.passes (c : EnvChoice) (n : Nat) : Bool :=
  !c.reset && !c.error && decide (n ≤ c.count)

end Sys2Proof

namespace Sys2Proof.Machine

/-- The payload fits a frame (R122), as every frame the block sends must. -/
abbrev State.fits (s : State) (payload : List Byte) : Prop :=
  payload.length ≤ s.params.maxPayload ∧ payload.length ≤ maxLength16

/-- No reset event lands inside the next `n` outward calls. -/
def State.noReset (s : State) (n : Nat) : Bool :=
  (List.range n).all fun k => !(s.choiceAt k).reset

/-- What `IN` holds at the `k`-th call from now if nothing is taken or flushed before it. -/
def State.inAt (s : State) : Nat → List Byte
  | 0 => s.inq ++ (s.choiceAt 0).arrived
  | k + 1 => s.inAt k ++ (s.choiceAt (k + 1)).arrived

/-- The `k`-th call from now, a read of `answer.length` bytes, brings `answer` if nothing is taken or
flushed before it. -/
def State.brings (s : State) (k : Nat) (answer : List Byte) : Bool :=
  (s.choiceAt k).passes answer.length && (s.inAt k).take answer.length == answer

/-- An exchange goes well on the transport: the next call, a write of `n` bytes, is let through and the
read after it brings `answer`. -/
def State.answered (s : State) (n : Nat) (answer : List Byte) : Bool :=
  (s.choiceAt 0).passes n && s.brings 1 answer

/-- A well-formed Acknowledge frame from the address `ADDR` holds. -/
def State.ackFrame (s : State) (payload : List Byte) : List Byte :=
  encodeFrame s.params .acknowledge payload s.addr

/-- The state after one whole write of `frame` and one whole read of `answer` into `RXBUF`. -/
def State.afterExchange (s : State) (frame answer : List Byte) (t : Nat) : State :=
  { s with
    txbuf := s.txbuf.writeBytes 0 frame, txlen := frame.length,
    rxbuf := s.rxbuf.writeBytes 0 answer, rxlen := answer.length,
    out := s.out ++ frame,
    inq := (s.inAt 1).drop answer.length,
    env := s.env.drop 2, envIndex := s.envIndex + 2,
    calls := s.calls ++ [.write frame frame.length false, .read answer.length t answer false] }

/-- The state after one whole read of `answer` into `RXBUF`. -/
def State.afterRead (s : State) (answer : List Byte) (t : Nat) : State :=
  { s with
    rxbuf := s.rxbuf.writeBytes 0 answer, rxlen := answer.length,
    inq := (s.inAt 0).drop answer.length,
    env := s.env.drop 1, envIndex := s.envIndex + 1,
    calls := s.calls ++ [.read answer.length t answer false] }

/-- A legal transfer frame of the running session is read, expanded, counted and delivered (R225). -/
def State.afterTransfer (s : State) (frame raw : List Byte) : State :=
  { s with
    rxbuf := s.rxbuf.writeBytes 0 frame, rxlen := frame.length,
    xbuf := s.xbuf.writeBytes 0 (expandBytes raw), xlen := 2 * raw.length,
    rxcount := s.rxcount + s.sessionP.setWidth 32,
    inq := (s.inAt 0).drop frame.length ++ (s.choiceAt 1).arrived,
    env := s.env.drop 2, envIndex := s.envIndex + 2,
    calls := s.calls ++ [.read frame.length Config.timeoutStream frame false,
      .deliver (expandBytes raw)] }

/-- Every index below `n` of a buffer holds a value, and no index at or above `cap` does (R32 to R35). -/
def Memory.holds (m : Memory) (n cap : Nat) : Prop :=
  m.wf = true ∧ (∀ i, i < n → (m.read i).isSome = true) ∧ (∀ i, cap ≤ i → m.read i = none) ∧ n ≤ cap

/-- THE INVARIANT. The binding is legal; `BAUD_SEL` holds a legal selector (R24); while an upload runs a
consumer is registered and `SESSION_P` is a packet length (R26, R30); each buffer is canonical, within
its capacity, and filled up to its length (R32 to R35). -/
structure State.Inv (s : State) : Prop where
  binding : s.params.ok = true
  baud : legalBaud s.baudSel.toNat = true
  session : s.fsm ≠ .idle → s.consumerValid = true ∧ legalSession s.sessionP.toNat = true
  tx : s.txbuf.holds s.txlen (s.params.maxPayload + 11)
  rx : s.rxbuf.holds s.rxlen 267
  x : s.xbuf.holds s.xlen 512

end Sys2Proof.Machine
end

