-- ==== Sys2Proof/Certificates/Slice0/Obligations.lean ====
section
/-! DEFINITION. The statements. Each docstring names the rules of spec/ it formalises; a clause that is
the model's choice says so and names its log entry (notes/assumptions). Every statement holds for every
binding of the parameters its hypotheses allow (the record is in State) and for every choice of the
environment they allow. -/

open Sys2Proof Sys2Proof.Machine

/-! ## Frame codec -/

/-- After R120: CHECKSUM is the sum of the kind byte, the two length bytes and the payload bytes modulo
65536; it raises nothing and changes nothing but the result. The model's choices: it runs in every state of
`FSM`, as R100's table has it (log entry 21), and it completes also for an `L` that is not the payload's
length or is above 65533, of which R120 states no checksum, with one of which nothing is known (log entry
23). -/
def Obligations.ChecksumIsSumOfCoveredBytes : Prop :=
  ∀ (s : State) (kind : Kind) (L : Nat) (payload : List Byte),
    ∃ c : Half,
      (L = payload.length → L ≤ 65533 →
        c.toNat = ((kindByte s.params kind).toNat + (payload.length + 2) / 256
          + (payload.length + 2) % 256 + (payload.map BitVec.toNat).sum) % 65536) ∧
      exec (.opChecksum kind L payload) s = .next { s with result := some (.ok (.checksum c)) }

/-- R123: ENCODE returns the frame of R80 with its computed length and checksum, and writes it to `TXBUF[0
.. L+10]` and `TXLEN`; every other index of `TXBUF` and every other element of the state stay. -/
def Obligations.EncodeWritesTheFrame : Prop :=
  ∀ (s : State) (kind : Kind) (payload : List Byte) (a : Bytes4),
    s.fsm = .idle → payload.length ≤ s.params.maxPayload → payload.length ≤ 65533 →
    ∃ (c : Half) (frame : List Byte) (t : State),
      c.toNat = ((kindByte s.params kind).toNat + (payload.length + 2) / 256
        + (payload.length + 2) % 256 + (payload.map BitVec.toNat).sum) % 65536 ∧
      frame = [s.params.start0, s.params.start1, a.b0, a.b1, a.b2, a.b3, kindByte s.params kind,
          BitVec.ofNat 8 ((payload.length + 2) / 256), BitVec.ofNat 8 ((payload.length + 2) % 256)]
        ++ payload ++ [BitVec.ofNat 8 (c.toNat / 256), BitVec.ofNat 8 (c.toNat % 256)] ∧
      exec (.opEncode kind payload a) s = .next t ∧
      t.result = some (.ok (.bytes frame)) ∧ t.txlen = payload.length + 11 ∧
      (∀ i, i < payload.length + 11 → t.txbuf.read i = frame[i]?) ∧
      (∀ i, payload.length + 11 ≤ i → t.txbuf.read i = s.txbuf.read i) ∧
      t = { s with txbuf := t.txbuf, txlen := t.txlen, result := t.result }

/-- After R122 (the spec's decision D23): a payload longer than `MAX_PAYLOAD` has no meaning. That ENCODE,
SEND_FRAME, EXCHANGE and a Command frame then refuse it by name is the model's choice (log entry 12), and
so is that a Command frame as an instruction is encoded and sent (log entry 9) and that SEND_FRAME is given
any kind (log entry 24). -/
def Obligations.EncodeRefusesWhatDoesNotFit : Prop :=
  ∀ (s : State) (kind : Kind) (payload : List Byte) (a : Bytes4) (op : CmdOp) (len cks : Half),
    s.fsm = .idle → s.params.maxPayload < payload.length →
      exec (.opEncode kind payload a) s = .refused .payloadTooLong ∧
      exec (.opSendFrame kind payload) s = .refused .payloadTooLong ∧
      exec (.opExchange op payload) s = .refused .payloadTooLong ∧
      exec (.frameCommand a len payload cks) s = .refused .payloadTooLong

/-- R124: the length field of every encoded frame is `len(payload) + 2`, and the frame is `len(payload) +
11` bytes long. -/
def Obligations.EncodedLengthInvariant : Prop :=
  ∀ (p : Params) (kind : Kind) (payload : List Byte) (a : Bytes4), payload.length ≤ 65533 →
    (splitFrame (encodeFrame p kind payload a)).length.toNat = payload.length + 2 ∧
    (encodeFrame p kind payload a).length = payload.length + 11

/-- R127: DECODE of an encoded frame gives back start, address, kind byte, length, payload and checksum;
`kind_of` of the kind byte is the kind; and the frame passes VERIFY_CHECKSUM. -/
def Obligations.DecodeRecoversEncodedFrame : Prop :=
  ∀ (s : State) (kind : Kind) (payload : List Byte) (a : Bytes4),
    s.params.ok = true → s.fsm = .idle → payload.length ≤ s.params.maxPayload →
    ∃ f : FrameFields,
      exec (.opDecode (encodeFrame s.params kind payload a)) s =
        .next { s with result := some (.ok (.fields f)) } ∧
      f.start0 = s.params.start0 ∧ f.start1 = s.params.start1 ∧ f.addr = a ∧
      f.kbyte = kindByte s.params kind ∧ kindOf s.params f.kbyte = some kind ∧
      f.length.toNat = payload.length + 2 ∧ f.payload = payload ∧
      f.checksum = checksum s.params kind payload.length payload ∧
      exec (.opVerifyChecksum (encodeFrame s.params kind payload a)) s =
        .next { s with result := some (.ok (.verdict true)) }

/-- R125 (the spec's decision D7): DECODE splits a buffer of 11 bytes or more, at fixed offsets and by the
buffer's size, into fields that put together give the buffer again, and checks nothing; a shorter buffer
has no meaning. -/
def Obligations.DecodeSplitsTheBuffer : Prop :=
  ∀ (s : State) (buf : List Byte), s.fsm = .idle →
    (11 ≤ buf.length → ∃ f : FrameFields,
      exec (.opDecode buf) s = .next { s with result := some (.ok (.fields f)) } ∧
      buf = [f.start0, f.start1] ++ [f.addr.b0, f.addr.b1, f.addr.b2, f.addr.b3] ++ [f.kbyte]
        ++ [BitVec.ofNat 8 (f.length.toNat / 256), BitVec.ofNat 8 (f.length.toNat % 256)]
        ++ f.payload
        ++ [BitVec.ofNat 8 (f.checksum.toNat / 256), BitVec.ofNat 8 (f.checksum.toNat % 256)]) ∧
    (buf.length < 11 → exec (.opDecode buf) s = .refused .bufferTooShort)

/-- R126 (the spec's decision D6): VERIFY_CHECKSUM compares the sum of bytes 6 to N-3 modulo 65536 with
the last two bytes; it changes nothing but the result; a buffer under 11 bytes has no meaning. -/
def Obligations.VerifyChecksumComparesTheSum : Prop :=
  ∀ (s : State) (buf : List Byte), s.fsm = .idle →
    (11 ≤ buf.length → ∃ b : Bool,
      exec (.opVerifyChecksum buf) s = .next { s with result := some (.ok (.verdict b)) } ∧
      (b = true ↔ (((buf.drop 6).take (buf.length - 8)).map BitVec.toNat).sum % 65536 =
        (buf.getD (buf.length - 2) 0#8).toNat * 256 + (buf.getD (buf.length - 1) 0#8).toNat)) ∧
    (buf.length < 11 → exec (.opVerifyChecksum buf) s = .refused .bufferTooShort)

/-- R128: flipping one bit of a byte from offset 6 on, the checksum bytes included, makes a frame fail
VERIFY_CHECKSUM, always; the bytes before offset 6 have no influence on it. -/
def Obligations.SingleBitFlipIsDetected : Prop :=
  ∀ (buf : List Byte), 11 ≤ buf.length →
    (∀ i j, verifyChecksum buf = true → 6 ≤ i → i < buf.length → j < 8 →
      verifyChecksum (buf.set i (buf.getD i 0#8 ^^^ (1#8 <<< j))) = false) ∧
    (∀ i v, i < 6 → verifyChecksum (buf.set i v) = verifyChecksum buf)

/-- After R129's first example: exchanging two bytes of the covered region is not detected. -/
def Obligations.ExchangedBytesAreNotDetected : Prop :=
  ∀ (buf : List Byte) (i k : Nat), 11 ≤ buf.length →
    6 ≤ i → i < buf.length - 2 → 6 ≤ k → k < buf.length - 2 →
      verifyChecksum ((buf.set i (buf.getD k 0#8)).set k (buf.getD i 0#8)) = verifyChecksum buf

/-! ## Header validator -/

/-- After R140 and R147, with R141 to R144: the four checks in order, the first failing one reported; the
error is the operation's result (R253) and ends nothing (log entry 20), so nothing but the result changes; a
buffer under 9 bytes has no meaning. That the same holds for an expected length above 65535, which no length
field equals, and for an empty set of kinds is the model's choice (log entries 22 and 12). -/
def Obligations.ValidateReportsFirstFailure : Prop :=
  ∀ (s : State) (buf : List Byte) (accept : List Kind) (expected : Nat),
    s.params.ok = true → s.fsm = .idle →
    let b := fun i => buf.getD i 0#8
    let startOk := b 0 = s.params.start0 ∧ b 1 = s.params.start1
    let addrOk := b 2 = s.addr.b0 ∧ b 3 = s.addr.b1 ∧ b 4 = s.addr.b2 ∧ b 5 = s.addr.b3
    let kindOk := ∃ k ∈ accept, b 6 = kindByte s.params k
    let lengthOk := (b 7).toNat * 256 + (b 8).toNat = expected
    (9 ≤ buf.length → ∃ r : OpResult,
      exec (.opValidate buf accept expected) s = .next { s with result := some r } ∧
      (¬ startOk → r = .err .startMismatch) ∧
      (startOk → ¬ addrOk → r = .err .addressMismatch) ∧
      (startOk → addrOk → ¬ kindOk → r = .err .kindMismatch) ∧
      (startOk → addrOk → kindOk → ¬ lengthOk → r = .err .lengthMismatch) ∧
      (startOk → addrOk → kindOk → lengthOk → r = .ok .done)) ∧
    (buf.length < 9 → exec (.opValidate buf accept expected) s = .refused .bufferTooShort)

/-! ## Transport -/

/-- R150 with R52 (the spec's decision D15): `T.write(s)` ends as `Count(c)` or `Error`, and a prefix of
`s`, of `c` bytes in the first case, is appended to `OUT`. The environment's choice is that of the state
(log entry 4). A reset that lands in the call comes after that prefix has moved (log entry 8). R150 speaks of
11 bytes and more; that a shorter write runs in the same way is the model's choice (log entry 12). -/
def Obligations.TransportWriteAppendsPrefix : Prop :=
  ∀ (s : State) (bytes : List Byte),
    let c := s.choiceAt 0
    let n := min c.count bytes.length
    let s1 : State := { s with
      out := s.out ++ bytes.take n
      inq := s.inq ++ c.arrived, env := s.env.drop 1, envIndex := s.envIndex + 1
      calls := s.calls ++ [.write bytes n c.error] }
    (c.reset = false → exec (.opTWrite bytes) s =
      .next { s1 with result := some (.ok (if c.error then .transportError else .written n)) }) ∧
    (c.reset = true → exec (.opTWrite bytes) s = .next s1.resetEvent)

/-- R151 with R53 (the spec's decision D16): `T.read(n, t)` takes at most `n` bytes from the front of
`IN`, in order, and ends as `Bytes` of them or `Error`; in both cases they are gone (R61), and so they are
when a reset lands in the call (log entry 8). R151 speaks of `n` from 11 to 267; that any other size runs in
the same way is the model's choice (log entry 12). -/
def Obligations.TransportReadTakesFront : Prop :=
  ∀ (s : State) (n t : Nat),
    let c := s.choiceAt 0
    let k := min c.count n
    let s1 : State := { s with
      inq := (s.inq ++ c.arrived).drop k, env := s.env.drop 1, envIndex := s.envIndex + 1
      calls := s.calls ++ [.read n t ((s.inq ++ c.arrived).take k) c.error] }
    (c.reset = false → exec (.opTRead n t) s =
      .next { s1 with
        result := some (.ok (if c.error then .transportError
          else .received ((s.inq ++ c.arrived).take k))) }) ∧
    (c.reset = true → exec (.opTRead n t) s = .next s1.resetEvent)

/-- R152: `T.flush()` empties `IN`, has no result and cannot fail; a reset that lands in it finds `IN`
empty (log entry 8). -/
def Obligations.TransportFlushEmptiesIn : Prop :=
  ∀ (s : State),
    let s1 : State := { s with
      inq := [], env := s.env.drop 1, envIndex := s.envIndex + 1, calls := s.calls ++ [.flush] }
    ((s.choiceAt 0).reset = false →
      exec .opTFlush s = .next { s1 with result := some (.ok .done) }) ∧
    ((s.choiceAt 0).reset = true → exec .opTFlush s = .next s1.resetEvent)

/-- R153 (the spec's decision D26): `T.reconfigure_speed(m)` sets the transport's speed to the one `m`
stands for, or ends as `Error` with the speed unknown. The model's choices: a reset that lands in it
leaves the speed unknown (log entries 8 and 16), and with an `m` that is no baud selector the call runs all
the same, with a speed of which nothing is known where it ends as `Done` (log entry 23). -/
def Obligations.ReconfigureSetsTheSpeed : Prop :=
  ∀ (s : State) (m : Nat),
    let c := s.choiceAt 0
    let s1 : LineSpeed → State := fun v => { s with
      speed := v
      inq := s.inq ++ c.arrived, env := s.env.drop 1, envIndex := s.envIndex + 1
      calls := s.calls ++ [.reconfigure m c.error] }
    (c.reset = false → c.error = false → ∃ v : LineSpeed,
      ((m = 1 ∨ m = 2 ∨ m = 4 ∨ m = 6 ∨ m = 12) → v = .ofSelector m) ∧
      exec (.opTReconfigureSpeed m) s = .next { s1 v with result := some (.ok .done) }) ∧
    (c.reset = false → c.error = true → exec (.opTReconfigureSpeed m) s =
      .next { s1 .unknown with result := some (.ok .transportError) }) ∧
    (c.reset = true → exec (.opTReconfigureSpeed m) s = .next (s1 .unknown).resetEvent)

/-- After R155: SEND_FRAME encodes the frame for `ADDR` into `TXBUF` and hands it over in one call; all of it
accepted is `Ok`, `Error` raises WriteFailure, fewer bytes PartialWrite; the accepted prefix stays in
`OUT`. (A reset in the call: ResetInsideSendOrFlush.) R155 gives it any kind; that SEND_FRAME presented by
itself sends other kinds than Command too, which R91 has the block never do, is the model's choice (log entry
24), and so is that it runs whatever command was sent before (log entries 27 and 28). -/
def Obligations.SendFrameOutcomes : Prop :=
  ∀ (s : State) (kind : Kind) (payload : List Byte),
    payload.length ≤ s.params.maxPayload → payload.length ≤ 65533 →
    let c := s.choiceAt 0
    let frame := encodeFrame s.params kind payload s.addr
    let n := min c.count frame.length
    let s1 : State := { s with
      txbuf := s.txbuf.writeBytes 0 frame, txlen := frame.length, out := s.out ++ frame.take n
      inq := s.inq ++ c.arrived, env := s.env.drop 1, envIndex := s.envIndex + 1
      calls := s.calls ++ [.write frame n c.error] }
    let run := exec (.opSendFrame kind payload) s
    (c.reset = false → c.error = false → n = frame.length →
      run = .next { s1 with result := some (.ok .done) }) ∧
    (c.reset = false → c.error = true → run = .next (takeError .writeFailure s1)) ∧
    (c.reset = false → c.error = false → n < frame.length →
      run = .next (takeError .partialWrite s1))

/-- R156 (the spec's decision D9), in the order of R260: RECV_FRAME asks for `9 + expected_length` bytes
in one read; `Error`, no byte and fewer bytes raise ReadFailure, NotFound and ShortRead with `RXBUF`
untouched; a whole buffer is written to `RXBUF`, then the checksum and then the header is checked. When a
reset lands in the read, the bytes it took are gone (log entry 8). For an expected length outside 2 to 258
the model's choice is that all this happens too, with a checksum verdict, a payload and, beyond `RXBUF`'s 267
bytes, an `RXLEN` of which nothing is known (log entry 23). R156 asks for a set of kinds that is not empty;
that an empty one runs in the same way is the model's choice (log entry 12). -/
def Obligations.RecvFrameOutcomes : Prop :=
  ∀ (s : State) (accept : List Kind) (expected t : Nat),
    s.params.ok = true →
    let c := s.choiceAt 0
    let N := 9 + expected
    let sized := 2 ≤ expected ∧ expected ≤ 258
    let b := (s.inq ++ c.arrived).take (min c.count N)
    let s1 : State := { s with
      inq := (s.inq ++ c.arrived).drop (min c.count N)
      env := s.env.drop 1, envIndex := s.envIndex + 1
      calls := s.calls ++ [.read N t b c.error] }
    let s2 : State := { s1 with rxbuf := s.rxbuf.writeBytes 0 b, rxlen := b.length }
    let run := exec (.opRecvFrame accept expected t) s
    (c.reset = false → c.error = true → run = .next (takeError .readFailure s1)) ∧
    (c.reset = false → c.error = false → b.length = 0 → run = .next (takeError .notFound s1)) ∧
    (c.reset = false → c.error = false → 0 < b.length → b.length < N →
      run = .next (takeError .shortRead s1)) ∧
    (sized → c.reset = false → c.error = false → b.length = N → verifyChecksum b = false →
      run = .next (takeError .checksumMismatch s2)) ∧
    (sized → c.reset = false → c.error = false → b.length = N → verifyChecksum b = true →
      ∀ e, validateHeader s.params s.addr b accept expected = some e → run = .next (takeError e s2)) ∧
    (sized → c.reset = false → c.error = false → b.length = N → verifyChecksum b = true →
      validateHeader s.params s.addr b accept expected = none →
      ∃ k ∈ accept, b.getD 6 0#8 = kindByte s.params k ∧
        run = .next { s2 with
          result := some (.ok (.frame k ((b.drop 9).take (expected - 2)))) }) ∧
    (¬ sized → c.reset = false → c.error = false → b.length = N →
      ∃ n ≤ 267, (b.length ≤ 267 → n = b.length) ∧
        let s3 : State := { s1 with rxbuf := s.rxbuf.writeBytes 0 (b.take 267), rxlen := n }
        run = .next (takeError .checksumMismatch s3) ∨
        match validateHeader s.params s.addr b accept expected with
        | some e => run = .next (takeError e s3)
        | none => ∃ k ∈ accept, b.getD 6 0#8 = kindByte s.params k ∧ ∃ payload,
            run = .next { s3 with result := some (.ok (.frame k payload)) }) ∧
    (c.reset = true → run = .next s1.resetEvent)

/-- R157, in every environment: an exchange is one SEND_FRAME of the command and then, only if that was
`Ok`, one RECV_FRAME of `ACK_LEN(op) + 2` for Acknowledge alone; the status byte is split from the other
fields; an error of either, unchanged, ends the exchange. -/
def Obligations.ExchangeIsOneSendAndOneReceive : Prop :=
  ∀ (s : State) (op : CmdOp) (payload : List Byte),
    s.params.ok = true → payload.length ≤ s.params.maxPayload →
    ∃ u : State, exec (.opSendFrame .command payload) s = .next u ∧
      (u.result ≠ some (.ok .done) → exec (.opExchange op payload) s = .next u) ∧
      (u.result = some (.ok .done) → ∃ v : State,
        exec (.opRecvFrame [.acknowledge] (ackLen s.params op + 2) (Config.timeout op)) u =
          .next v ∧
        (∀ k st fields, v.result = some (.ok (.frame k (st :: fields))) →
          exec (.opExchange op payload) s =
            .next { v with result := some (.ok (.exchanged st fields)) }) ∧
        ((∀ k ack, v.result ≠ some (.ok (.frame k ack))) →
          exec (.opExchange op payload) s = .next v))

/-- R157: an exchange writes one command frame and reads one acknowledgement, and returns the status byte,
whatever it is (R252), apart from the other fields; it writes `TXBUF`, `RXBUF` and their lengths and no
register. That EXCHANGE presented by itself does no more after a set-baud or an upload-image command is the
model's choice (log entries 10 and 28). -/
def Obligations.ExchangeReturnsStatusAndFields : Prop :=
  ∀ (s : State) (op : CmdOp) (payload : List Byte) (status : Byte) (fields : List Byte),
    s.params.ok = true → payload.length ≤ s.params.maxPayload →
    fields.length + 1 = ackLen s.params op →
    s.answered (payload.length + 11) (s.ackFrame (status :: fields)) = true →
      exec (.opExchange op payload) s =
        .next { s.afterExchange (encodeFrame s.params .command payload s.addr)
            (s.ackFrame (status :: fields)) (Config.timeout op) with
          result := some (.ok (.exchanged status fields)) }

/-! ## Commands -/

/-- R182, R187 and R189, in every environment: verify-password, set-security-level and generate-image are
their exchange, whose status is the result, and whose error is theirs; a level outside 1 to 5 is rejected
with no I/O. -/
def Obligations.StatusCommandsAreTheirExchange : Prop :=
  ∀ (s : State) (pw : Bytes4) (level : Nat),
    s.params.ok = true → s.fsm = .idle → 5 ≤ s.params.maxPayload →
    let runs : CmdOp → List Byte → Instr → Prop := fun op payload i =>
      ∃ u : State, exec (.opExchange op payload) s = .next u ∧
        (∀ st fields, u.result = some (.ok (.exchanged st fields)) →
          exec i s = .next { u with result := some (.ok (.status st)) }) ∧
        ((∀ st fields, u.result ≠ some (.ok (.exchanged st fields))) → exec i s = .next u)
    runs .vfyPwd [s.params.icVfyPwd, pw.b0, pw.b1, pw.b2, pw.b3] (.opVfyPwd pw) ∧
    runs .genImage [s.params.icGenImage] .opGenImage ∧
    (1 ≤ level ∧ level ≤ 5 →
      runs .setSecurity [s.params.icSetSysPara, s.params.pnSecurity, BitVec.ofNat 8 level]
        (.opSetSecurity level)) ∧
    (level < 1 ∨ 5 < level →
      exec (.opSetSecurity level) s =
        .next { s with result := some (.err .invalidParameter) })

/-- The same three commands as block operations and as request frames (whose address is the frame's own,
log entry 9), where the exchange goes well: the status is returned and only buffers are written. -/
def Obligations.StatusCommandsWriteBuffersOnly : Prop :=
  ∀ (s : State) (a pw : Bytes4) (cks : Half) (level : Byte) (op : CmdOp) (status : Byte)
    (fields : List Byte),
    s.params.ok = true → s.fsm = .idle → 5 ≤ s.params.maxPayload →
    fields.length + 1 = ackLen s.params op →
    let ends : List Byte → Instr → Instr → Prop := fun payload i request =>
      s.answered (payload.length + 11) (s.ackFrame (status :: fields)) = true →
      let t : Bytes4 → State := fun dest =>
        { s.afterExchange (encodeFrame s.params .command payload dest)
            (s.ackFrame (status :: fields)) (Config.timeout op) with
          result := some (.ok (.status status)) }
      exec i s = .next (t s.addr) ∧ exec request s = .next (t a)
    (op = .vfyPwd →
      ends [s.params.icVfyPwd, pw.b0, pw.b1, pw.b2, pw.b3] (.opVfyPwd pw) (.vfyPwd a pw cks)) ∧
    (op = .genImage → ends [s.params.icGenImage] .opGenImage (.genImage a cks)) ∧
    (op = .setSecurity → 1 ≤ level.toNat → level.toNat ≤ 5 →
      ends [s.params.icSetSysPara, s.params.pnSecurity, level] (.opSetSecurity level.toNat)
        (.setSecurity a level cks))

/-- R183 with R90's layout (general knowledge, log entry 17): on success the seven fields and whether the
identifier is `SYS_ID_CONST`; on any other status neither; no register changes. The request frame as an
instruction, sent to the address it carries, is the model's choice (log entry 9). -/
def Obligations.ReadSysParaReturnsSnapshot : Prop :=
  ∀ (s : State) (a : Bytes4) (cks : Half) (status : Byte) (body : List Byte),
    s.params.ok = true → s.fsm = .idle → 1 ≤ s.params.maxPayload → body.length = 16 →
    s.answered 12 (s.ackFrame (status :: body)) = true →
    ∃ f : SysParams,
      (let n := fun i => (body.getD i 0#8).toNat * 256 + (body.getD (i + 1) 0#8).toNat
       f.statusFlags.toNat = n 0 ∧ f.identifier.toNat = n 2 ∧ f.capacity.toNat = n 4 ∧
       f.securityLevel.toNat = n 6 ∧ f.dataLength.toNat = n 12 ∧ f.baud.toNat = n 14 ∧
       [f.deviceAddress.b0, f.deviceAddress.b1, f.deviceAddress.b2, f.deviceAddress.b3] =
         (body.drop 8).take 4) ∧
      let t : Bytes4 → State := fun dest =>
        { s.afterExchange (encodeFrame s.params .command [s.params.icReadSysPara] dest)
            (s.ackFrame (status :: body)) (Config.timeout .readSysPara) with
          result := some (.ok (.sysPara status
            (if status = s.params.stSuccess then
              some (f, decide (f.identifier = s.params.sysIdConst)) else none))) }
      exec .opReadSysPara s = .next (t s.addr) ∧ exec (.readSysPara a cks) s = .next (t a)

/-- R184 (general knowledge, log entry 17): the count after the status byte, big-endian; none unless the
status is success. The request frame as an instruction, sent to the address it carries, is the model's
choice (log entry 9). -/
def Obligations.TemplateNumReturnsCount : Prop :=
  ∀ (s : State) (a : Bytes4) (cks : Half) (status h l : Byte) (rest : List Byte),
    s.params.ok = true → s.fsm = .idle → 1 ≤ s.params.maxPayload →
    rest.length + 3 = s.params.ackTemplateNum →
    s.answered 12 (s.ackFrame (status :: h :: l :: rest)) = true →
    ∃ n : Half, n.toNat = h.toNat * 256 + l.toNat ∧
      let t : Bytes4 → State := fun dest =>
        { s.afterExchange (encodeFrame s.params .command [s.params.icTemplateNum] dest)
            (s.ackFrame (status :: h :: l :: rest)) (Config.timeout .templateNum) with
          result := some (.ok (.templateNum status
            (if status = s.params.stSuccess then some n else none))) }
      exec .opTemplateNum s = .next (t s.addr) ∧ exec (.templateNum a cks) s = .next (t a)

/-- R186 (the spec's decision D26): after a success status `BAUD_SEL` takes the selector and the transport
is told, after the acknowledgement; any other status is returned and nothing else happens. The request
frame as an instruction, sent to the address it carries, is the model's choice (log entry 9). -/
def Obligations.SetBaudSwitchesAfterAcknowledgement : Prop :=
  ∀ (s : State) (a : Bytes4) (cks : Half) (sel : Byte) (status : Byte) (fields : List Byte),
    s.params.ok = true → s.fsm = .idle → 3 ≤ s.params.maxPayload →
    (sel = 1#8 ∨ sel = 2#8 ∨ sel = 4#8 ∨ sel = 6#8 ∨ sel = 12#8) →
    fields.length + 1 = s.params.ackSetSysPara →
    s.answered 14 (s.ackFrame (status :: fields)) = true →
    let s1 : Bytes4 → State := fun dest =>
      s.afterExchange (encodeFrame s.params .command
        [s.params.icSetSysPara, s.params.pnBaud, sel] dest)
        (s.ackFrame (status :: fields)) (Config.timeout .setBaud)
    let t : Bytes4 → State := fun dest =>
      if status = s.params.stSuccess then
        { s1 dest with
          baudSel := sel.setWidth 4, speed := .ofSelector sel.toNat
          inq := (s1 dest).inq ++ (s.choiceAt 2).arrived
          env := s.env.drop 3, envIndex := s.envIndex + 3
          calls := (s1 dest).calls ++ [.reconfigure sel.toNat false]
          result := some (.ok (.status status)) }
      else { s1 dest with result := some (.ok (.status status)) }
    (status = s.params.stSuccess →
      (s.choiceAt 2).error = false ∧ (s.choiceAt 2).reset = false) →
    exec (.opSetBaud sel.toNat) s = .next (t s.addr) ∧ exec (.setBaud a sel cks) s = .next (t a)

/-- R186 (the spec's decision D26), in every environment: SET_BAUD is its exchange; after a success status
`BAUD_SEL` takes the selector and then the transport is told; where that fails ReconfigureFailure is
raised and `BAUD_SEL` stays the new selector; any other status is returned and nothing changes; an error
of the exchange is its own. -/
def Obligations.SetBaudFollowsItsExchange : Prop :=
  ∀ (s : State) (sel : Nat),
    s.params.ok = true → s.fsm = .idle → 3 ≤ s.params.maxPayload →
    (sel = 1 ∨ sel = 2 ∨ sel = 4 ∨ sel = 6 ∨ sel = 12) →
    ∃ u : State,
      exec (.opExchange .setBaud
        [s.params.icSetSysPara, s.params.pnBaud, BitVec.ofNat 8 sel]) s = .next u ∧
      (∀ fields, u.result = some (.ok (.exchanged s.params.stSuccess fields)) →
        ∃ v : State,
          exec (.opTReconfigureSpeed sel) { u with baudSel := BitVec.ofNat 4 sel } = .next v ∧
          (v.result = some (.ok .done) →
            v.baudSel.toNat = sel ∧
            exec (.opSetBaud sel) s =
              .next { v with result := some (.ok (.status s.params.stSuccess)) }) ∧
          (v.result = some (.ok .transportError) →
            v.baudSel.toNat = sel ∧
            exec (.opSetBaud sel) s = .next (takeError .reconfigureFailure v)) ∧
          (v.result = none → exec (.opSetBaud sel) s = .next v)) ∧
      (∀ st fields, u.result = some (.ok (.exchanged st fields)) → st ≠ s.params.stSuccess →
        exec (.opSetBaud sel) s = .next { u with result := some (.ok (.status st)) }) ∧
      ((∀ st fields, u.result ≠ some (.ok (.exchanged st fields))) →
        exec (.opSetBaud sel) s = .next u)

/-- R188, in every environment: SET_DATALEN is its exchange, with the selector sent unchanged; `DLEN_SEL`
takes the selector exactly when the status is success, and is what it was on any other status and on every
error; the one other thing that changes it is the reset event, landing in the exchange (R290, decision
D21; that it lands inside a call is log entry 8), which leaves no result and `DLEN_RESET`. A selector
outside 0 to 3 is rejected with no I/O. -/
def Obligations.SetDatalenFollowsItsExchange : Prop :=
  ∀ (s : State) (sel : Nat),
    s.params.ok = true → s.fsm = .idle → 3 ≤ s.params.maxPayload →
    (sel ≤ 3 → ∃ u : State,
      exec (.opExchange .setDatalen
        [s.params.icSetSysPara, s.params.pnDatalen, BitVec.ofNat 8 sel]) s = .next u ∧
      (∀ st fields, u.result = some (.ok (.exchanged st fields)) →
        exec (.opSetDatalen sel) s =
          .next { u with
            dlenSel := if st = s.params.stSuccess then BitVec.ofNat 2 sel else s.dlenSel
            result := some (.ok (.status st)) }) ∧
      ((∀ st fields, u.result ≠ some (.ok (.exchanged st fields))) →
        exec (.opSetDatalen sel) s = .next u) ∧
      (u.result ≠ none → u.dlenSel = s.dlenSel) ∧
      (u.result = none → u.dlenSel = s.params.dlenReset)) ∧
    (3 < sel →
      exec (.opSetDatalen sel) s = .next { s with result := some (.err .invalidParameter) })

/-- R188 with R94: the selector goes out unchanged, and `DLEN_SEL` takes it exactly on a success status.
The request frame as an instruction, sent to the address it carries, is the model's choice (log entry 9).
-/
def Obligations.SetDatalenRecordsSelector : Prop :=
  ∀ (s : State) (a : Bytes4) (cks : Half) (sel : Byte) (status : Byte) (fields : List Byte),
    s.params.ok = true → s.fsm = .idle → 3 ≤ s.params.maxPayload → sel.toNat ≤ 3 →
    fields.length + 1 = s.params.ackSetSysPara →
    s.answered 14 (s.ackFrame (status :: fields)) = true →
    let t : Bytes4 → State := fun dest =>
      { s.afterExchange (encodeFrame s.params .command
            [s.params.icSetSysPara, s.params.pnDatalen, sel] dest)
          (s.ackFrame (status :: fields)) (Config.timeout .setDatalen) with
        dlenSel := if status = s.params.stSuccess then sel.setWidth 2 else s.dlenSel
        result := some (.ok (.status status)) }
    exec (.opSetDatalen sel.toNat) s = .next (t s.addr) ∧
    exec (.setDatalen a sel cks) s = .next (t a)

/-- R190 (the spec's decision D19): SET_ADDR writes `ADDR` and nothing else, and makes no transport call.
-/
def Obligations.SetAddrWritesAddrOnly : Prop :=
  ∀ (s : State) (a : Bytes4), s.fsm = .idle →
    exec (.opSetAddr a) s = .next { s with addr := a, result := some (.ok .done) }

/-- R180 and R223 (the spec's decision D13): an operand outside its legal set raises InvalidParameter, and
a missing consumer NotReady, first, with no transport call and no state change but the result. That a
request frame as an instruction is checked in the same way is the model's choice (log entry 9). -/
def Obligations.RejectedBeforeAnyTransportCall : Prop :=
  ∀ (s : State) (n : Nat) (a : Bytes4) (v : Byte) (cks : Half), s.fsm = .idle →
    let bad : State := { s with result := some (.err .invalidParameter) }
    (¬ (n = 1 ∨ n = 2 ∨ n = 4 ∨ n = 6 ∨ n = 12) → exec (.opSetBaud n) s = .next bad) ∧
    (n < 1 ∨ 5 < n → exec (.opSetSecurity n) s = .next bad) ∧
    (3 < n → exec (.opSetDatalen n) s = .next bad) ∧
    (¬ (v = 1#8 ∨ v = 2#8 ∨ v = 4#8 ∨ v = 6#8 ∨ v = 12#8) →
      exec (.setBaud a v cks) s = .next bad) ∧
    (v.toNat < 1 ∨ 5 < v.toNat → exec (.setSecurity a v cks) s = .next bad) ∧
    (3 < v.toNat → exec (.setDatalen a v cks) s = .next bad) ∧
    (s.consumerValid = true → 3 < n → exec (.opUploadImage n) s = .next bad) ∧
    (s.consumerValid = false →
      exec (.opUploadImage n) s = .next { s with result := some (.err .notReady) })

/-- R191 and R224: the upload-image request is sent in `AwaitingGenerateAck`, as that state's exchange.
The model's choice (log entries 9 and 10): as an instruction it goes to the address it carries, and
addressed to `ADDR` it is the block's own transition in every environment; in `Idle`, where the host
"cannot issue it alone", it is refused by name, and while frames stream it is refused as busy. -/
def Obligations.UpImageRequestIsOneExchange : Prop :=
  ∀ (s : State) (a : Bytes4) (cks : Half),
    (s.fsm = .idle → exec (.upImage a cks) s = .refused .notIssuable) ∧
    (s.fsm = .streamingFrames → exec (.upImage a cks) s = .refused .busy) ∧
    (s.fsm = .awaitingGenerateAck → exec (.upImage s.addr cks) s = advance s) ∧
    (∀ (status : Byte) (fields : List Byte),
      s.params.ok = true → 1 ≤ s.params.maxPayload → fields.length + 1 = s.params.ackUpImage →
      s.answered 12 (s.ackFrame (status :: fields)) = true → s.fsm = .awaitingGenerateAck →
      let s1 := s.afterExchange (encodeFrame s.params .command [s.params.icUpImage] a)
        (s.ackFrame (status :: fields)) (Config.timeout .upImage)
      (status ≠ s.params.stSuccess →
        exec (.upImage a cks) s =
          .next { s1 with fsm := .idle, result := some (.ok (.status status)) }) ∧
      (status = s.params.stSuccess →
        exec (.upImage a cks) s = .next { s1 with fsm := .streamingFrames, result := none }))

/-! ## Frames as rows of the table -/

/-- After R91 and R155: running a Command frame sends it, to the address it carries, with the length and
checksum ENCODE computes (log entry 9), whatever its payload, that of the upload-image request included (log
entry 10), and whatever command was sent before (log entries 27 and 28). -/
def Obligations.CommandFrameIsSent : Prop :=
  ∀ (s : State) (a : Bytes4) (len cks : Half) (payload : List Byte),
    s.fsm = .idle → payload.length ≤ s.params.maxPayload → payload.length ≤ 65533 →
    (s.choiceAt 0).passes (payload.length + 11) = true →
    let frame := encodeFrame s.params .command payload a
    exec (.frameCommand a len payload cks) s =
      .next { s with
        txbuf := s.txbuf.writeBytes 0 frame, txlen := frame.length, out := s.out ++ frame
        inq := s.inq ++ (s.choiceAt 0).arrived, env := s.env.drop 1, envIndex := s.envIndex + 1
        calls := s.calls ++ [.write frame frame.length false], result := some (.ok .done) }

/-- After R53, R255 and R306: a frame of the module's arrives at the back of `IN`, as the bytes it
consists of, whatever their length and checksum say; a running upload then makes its next transition, and
while the block is idle the frame waits and nothing else changes (log entry 11). -/
def Obligations.ModuleFramesArriveInOrder : Prop :=
  ∀ (s : State) (a : Bytes4) (len cks n : Half) (payload : List Byte) (status : Byte)
    (body : SysParams),
    let bytes : Byte → Half → List Byte → List Byte := fun k l p =>
      [s.params.start0, s.params.start1, a.b0, a.b1, a.b2, a.b3, k, hiByte l, loByte l] ++ p
        ++ [hiByte cks, loByte cks]
    let arrives : Instr → List Byte → Prop := fun i f =>
      exec i s = advance { s with inq := s.inq ++ f } ∧
      (s.fsm = .idle → exec i s = .next { s with inq := s.inq ++ f })
    arrives (.frameData a len payload cks) (bytes s.params.kData len payload) ∧
    arrives (.frameEnd a len payload cks) (bytes s.params.kEnd len payload) ∧
    arrives (.frameAck a len payload cks) (bytes s.params.kAck len payload) ∧
    arrives (.ackStatus a status cks) (bytes s.params.kAck 3#16 [status]) ∧
    arrives (.ackTemplateNum a status n cks)
      (bytes s.params.kAck 5#16 [status, hiByte n, loByte n]) ∧
    arrives (.ackSysPara a status body cks)
      (bytes s.params.kAck 19#16 (status :: body.toBytes))

/-- After R225 (decision D24: the last frame has full size too), R226 and R227, for frames as
instructions, whose arrival makes the upload's next transition in the same step by the model's choice (log
entry 11): in `StreamingFrames` a good Data frame that arrives is read, expanded, counted and delivered
once and the stream goes on; an EndOfData frame is delivered too, and then the upload ends with success.
-/
def Obligations.TransferFrameIsDelivered : Prop :=
  ∀ (s : State) (raw : List Byte),
    s.params.ok = true → s.fsm = .streamingFrames → legalSession s.sessionP.toNat = true →
    raw.length = s.sessionP.toNat → (s.choiceAt 1).reset = false →
    let frame := fun k => encodeFrame s.params k raw s.addr
    let s0 : Kind → State := fun k => { s with inq := s.inq ++ frame k }
    ((s0 .data).brings 0 (frame .data) = true →
      exec (.frameData s.addr (lengthField raw.length) raw
        (checksum s.params .data raw.length raw)) s =
        .next { (s0 .data).afterTransfer (frame .data) raw with result := none }) ∧
    ((s0 .endOfData).brings 0 (frame .endOfData) = true →
      exec (.frameEnd s.addr (lengthField raw.length) raw
        (checksum s.params .endOfData raw.length raw)) s =
        .next { (s0 .endOfData).afterTransfer (frame .endOfData) raw with
          fsm := .idle, result := some (.ok (.status s.params.stSuccess)) })

/-! ## Expander -/

/-- R210: EXPAND_BYTE gives the high nibble and then the low nibble, each in the high nibble of its
sample. -/
def Obligations.ExpandByteGivesTwoSamples : Prop :=
  ∀ (s : State) (b : Byte), ∃ s0 s1 : Byte,
    exec (.opExpandByte b) s = .next { s with result := some (.ok (.samples s0 s1)) } ∧
    s0.toNat = b.toNat / 16 * 16 ∧ s1.toNat = b.toNat % 16 * 16

/-- R211: the samples' low nibbles are 0, their high nibbles are the two nibbles of the byte, and the byte
can be read back from them. -/
def Obligations.ExpandByteLosesNothing : Prop :=
  ∀ b : Byte,
    (expandByte b).1 &&& 0x0F#8 = 0#8 ∧ (expandByte b).2 &&& 0x0F#8 = 0#8 ∧
    (expandByte b).1 >>> 4 = b >>> 4 ∧ (expandByte b).2 >>> 4 = b &&& 0x0F#8 ∧
    (expandByte b).1 ||| ((expandByte b).2 >>> 4) = b

/-- R212: EXPAND writes two samples per byte to `XBUF` in order and sets `XLEN`; what lies above stays,
and so does everything else; more than 256 bytes have no meaning. -/
def Obligations.ExpandFillsXbuf : Prop :=
  ∀ (s : State) (raw : List Byte), s.fsm = .idle →
    (raw.length ≤ 256 → ∃ (t : State) (bs : List Byte),
      exec (.opExpand raw) s = .next t ∧ t.result = some (.ok (.bytes bs)) ∧
      bs.length = 2 * raw.length ∧ t.xlen = 2 * raw.length ∧
      (∀ i, i < raw.length → bs[2 * i]? = some (raw.getD i 0#8 &&& 0xF0#8) ∧
        bs[2 * i + 1]? = some ((raw.getD i 0#8 &&& 0x0F#8) <<< 4)) ∧
      (∀ i, i < 2 * raw.length → t.xbuf.read i = bs[i]?) ∧
      (∀ i, 2 * raw.length ≤ i → t.xbuf.read i = s.xbuf.read i) ∧
      t = { s with xbuf := t.xbuf, xlen := t.xlen, result := t.result }) ∧
    (256 < raw.length → exec (.opExpand raw) s = .refused .rawTooLong)

/-! ## Bulk transfer -/

/-- R220 (the spec's decision D18): REGISTER_CONSUMER writes `CONSUMER_VALID` and nothing else, and makes
no transport call. -/
def Obligations.RegisterConsumerWritesTheFlag : Prop :=
  ∀ (s : State) (valid : Bool), s.fsm = .idle →
    exec (.opRegisterConsumer valid) s =
      .next { s with consumerValid := valid, result := some (.ok .done) }

/-- R223 (the spec's decision D13): with a consumer and a legal selector UPLOAD_IMAGE creates the session,
`SESSION_P` 32, 64, 128 or 256 and `RXCOUNT` 0, and goes to `AwaitingGenerateAck`, with no transport call
yet and no result yet. -/
def Obligations.UploadOpensTheSession : Prop :=
  ∀ (s : State) (sel : Nat), s.fsm = .idle → s.consumerValid = true → sel ≤ 3 →
    ∃ P : BitVec 9, P.toNat = 32 * 2 ^ sel ∧
      exec (.opUploadImage sel) s =
        .next { s with
          sessionP := P, rxcount := 0#32, fsm := .awaitingGenerateAck, result := none }

/-- R224, in every environment: in `AwaitingGenerateAck` the block performs EXCHANGE(UP_IMAGE): on a
success status it goes to `StreamingFrames` with no result yet, on another status to `Idle` with that
status, on an error to `Idle` with the error; nothing is delivered. (With no result a reset has landed.)
-/
def Obligations.AwaitingPerformsTheExchange : Prop :=
  ∀ (s : State), s.params.ok = true → s.fsm = .awaitingGenerateAck →
    1 ≤ s.params.maxPayload → s.inputs = [] →
    ∃ u : State, exec (.opExchange .upImage [s.params.icUpImage]) s = .next u ∧
      deliveriesOf u.calls = deliveriesOf s.calls ∧
      (∀ st fields, u.result = some (.ok (.exchanged st fields)) →
        (st = s.params.stSuccess →
          step s = .next { u with fsm := .streamingFrames, result := none }) ∧
        (st ≠ s.params.stSuccess →
          step s = .next { u with fsm := .idle, result := some (.ok (.status st)) })) ∧
      (∀ e, u.result = some (.err e) → u.fsm = .idle ∧ step s = .next u) ∧
      (u.result = none → step s = .next u)

/-- R226, R227 and R228 (with R214, and R225's decision D24: every frame at one size), in every
environment: in `StreamingFrames` the block receives one transfer frame of the session's size; a good one is
expanded, counted and delivered exactly once, and then Data goes on and EndOfData ends the upload with
success; an error of the reception ends the upload, and that frame is neither expanded nor counted nor
delivered. A reset that lands in the delivery abandons it (R290); that the bytes have gone to the consumer by
then, as the record of the calls says, is the model's reading (log entry 8). -/
def Obligations.StreamingFollowsItsReception : Prop :=
  ∀ (s : State), s.params.ok = true → s.fsm = .streamingFrames →
    legalSession s.sessionP.toNat = true → s.inputs = [] →
    ∃ u : State,
      exec (.opRecvFrame [.data, .endOfData] (s.sessionP.toNat + 2) Config.timeoutStream) s =
        .next u ∧
      (∀ k raw, u.result = some (.ok (.frame k raw)) →
        raw.length = s.sessionP.toNat ∧
        ((u.choiceAt 0).reset = false →
          let t : State := { u with
            xbuf := u.xbuf.writeBytes 0 (expandBytes raw), xlen := 2 * raw.length
            rxcount := u.rxcount + s.sessionP.setWidth 32
            inq := u.inq ++ (u.choiceAt 0).arrived, env := u.env.drop 1
            envIndex := u.envIndex + 1
            calls := u.calls ++ [.deliver (expandBytes raw)], result := none }
          (k = .data → step s = .next t) ∧
          (k = .endOfData →
            step s = .next { t with
              fsm := .idle, result := some (.ok (.status s.params.stSuccess)) }) ∧
          (k = .data ∨ k = .endOfData)) ∧
        ((u.choiceAt 0).reset = true →
          step s = .next (State.resetEvent { u with
            inq := u.inq ++ (u.choiceAt 0).arrived, env := u.env.drop 1
            envIndex := u.envIndex + 1, calls := u.calls ++ [.deliver (expandBytes raw)] }))) ∧
      (∀ e, u.result = some (.err e) →
        step s = .next u ∧ u.fsm = .idle ∧ deliveriesOf u.calls = deliveriesOf s.calls ∧
        u.rxcount = s.rxcount ∧ u.xbuf = s.xbuf ∧ u.xlen = s.xlen) ∧
      (u.result = none → step s = .next u)

/-- R230 (the spec's decision D14): READ_RXCOUNT returns `RXCOUNT`, makes no transport call and changes
nothing but the result. -/
def Obligations.ReadRxcountReturnsTheCount : Prop :=
  ∀ (s : State), s.fsm = .idle →
    exec .opReadRxcount s = .next { s with result := some (.ok (.rxcount s.rxcount)) }

/-- R232 and R233, from the operation's start: an upload that a well-behaved module answers with success
and then with any number of Data frames and one EndOfData frame ends with success; every frame's payload
is delivered once, in order and expanded, and `RXCOUNT` is the number of raw bytes modulo 2^32 (its width
and wrap are the spec's decision D14). Every frame is one size (decision D24). -/
def Obligations.WholeUploadDeliversTheImage : Prop :=
  ∀ (s : State) (sel : Nat) (frames : List (List Byte)) (last : List Byte) (fields : List Byte),
    s.params.ok = true → 1 ≤ s.params.maxPayload → s.fsm = .idle → s.consumerValid = true →
    sel ≤ 3 → fields.length + 1 = s.params.ackUpImage →
    (∀ raw ∈ frames, raw.length = 32 * 2 ^ sel) → last.length = 32 * 2 ^ sel →
    s.inq = [] → s.inputs = [.issue (.opUploadImage sel)] →
    s.env =
      [⟨[], 12, false, false⟩,
       ⟨s.ackFrame (s.params.stSuccess :: fields), 267, false, false⟩]
      ++ frames.flatMap (fun raw =>
        [⟨encodeFrame s.params .data raw s.addr, 267, false, false⟩, ⟨[], 0, false, false⟩])
      ++ [⟨encodeFrame s.params .endOfData last s.addr, 267, false, false⟩,
        ⟨[], 0, false, false⟩] →
    ∃ t : State, core.run (frames.length + 3) s = .next t ∧
      t.fsm = .idle ∧ t.result = some (.ok (.status s.params.stSuccess)) ∧
      deliveriesOf t.calls =
        deliveriesOf s.calls ++ (frames ++ [last]).map expandBytes ∧
      t.rxcount = BitVec.ofNat 32 ((frames.length + 1) * (32 * 2 ^ sel)) ∧
      t.inq = []

/-- R231: an upload need not end: for every number of steps there is an environment under which a
streaming block has delivered a frame in each of them and is still streaming. -/
def Obligations.StreamNeedNotEnd : Prop :=
  ∀ n : Nat, ∃ s t : State, s.Inv ∧ s.fsm = .streamingFrames ∧ s.inputs = [] ∧
    core.run n s = .next t ∧ t.fsm = .streamingFrames ∧ t.result = s.result ∧
    (deliveriesOf t.calls).length = (deliveriesOf s.calls).length + n

/-! ## Errors -/

/-- R262 with R250, for both values of the parameter D10 leaves open: for each error kind, the flush
exactly where its category asks for it, `FSM` to `Idle`, `Err(kind)` returned, and nothing else changed.
(A reset in the flush: ResetInsideSendOrFlush.) -/
def Obligations.AbortActionFlushesByCategory : Prop :=
  ∀ (s : State) (e : ErrorKind),
    let checkError := e ∈ [ErrorKind.checksumMismatch, .startMismatch, .addressMismatch,
      .kindMismatch, .lengthMismatch]
    let transportError := e ∈ [ErrorKind.writeFailure, .partialWrite, .readFailure, .notFound,
      .shortRead, .reconfigureFailure]
    let flush := checkError ∨ (s.params.flushOnTransportError = true ∧ transportError)
    (flush → (s.choiceAt 0).reset = false →
      takeError e s = { s with
        inq := [], env := s.env.drop 1, envIndex := s.envIndex + 1
        calls := s.calls ++ [.flush], fsm := .idle, result := some (.err e) }) ∧
    (¬ flush → takeError e s = { s with fsm := .idle, result := some (.err e) })

/-- R62 and R28 say that no host operation runs while an upload does. The model's form of it (log entries
5 and 14): the operation's meaning refuses as busy, and `step` lets it wait and makes the upload's next
transition, whether it was issued or presented as the bytes that decode to it; the same for FRAME.COMMAND
and the request frames (log entry 9), and for the upload-image request while frames stream (log entry 10).
-/
def Obligations.BusyBlockTakesNoHostOperation : Prop :=
  ∀ (s : State) (i : Instr) (rest : List Input),
    (match i with
      | .opEncode _ _ _ | .opDecode _ | .opVerifyChecksum _ | .opValidate _ _ _ | .opVfyPwd _
      | .opReadSysPara | .opTemplateNum | .opSetBaud _ | .opSetSecurity _ | .opSetDatalen _
      | .opGenImage | .opSetAddr _ | .opExpand _ | .opRegisterConsumer _ | .opUploadImage _
      | .opReadRxcount | .frameCommand _ _ _ _ | .vfyPwd _ _ _ | .readSysPara _ _
      | .templateNum _ _ | .setBaud _ _ _ | .setSecurity _ _ _ | .setDatalen _ _ _
      | .genImage _ _ => s.fsm ≠ .idle
      | .upImage _ _ => s.fsm = .streamingFrames
      | _ => False) →
    exec i s = .refused .busy ∧
    (s.inputs = .issue i :: rest → step s = advance s) ∧
    (∀ bs, decode s.params bs = .ok i → s.inputs = .code bs :: rest → step s = advance s)

/-- R193 with R20, in any environment in which no reset lands: after a command `FSM` is `Idle`, `ADDR`,
`CONSUMER_VALID`, `SESSION_P`, `RXCOUNT` and `XBUF` are what they were, `DLEN_SEL` and `BAUD_SEL` too but
for their own setters, nothing is delivered, `OUT` has only grown, and `TXBUF` and `RXBUF` are what they
were above the command frame and above the acknowledgement. That the request frames run as commands is the
model's choice (log entry 9). -/
def Obligations.CommandsLeaveOtherStateAlone : Prop :=
  ∀ (s t : State) (i : Instr) (request answer : Nat),
    (match i with
      | .opVfyPwd _ | .vfyPwd _ _ _ => request = 16 ∧ answer = s.params.ackVfyPwd + 11
      | .opReadSysPara | .readSysPara _ _ => request = 12 ∧ answer = 28
      | .opTemplateNum | .templateNum _ _ => request = 12 ∧ answer = s.params.ackTemplateNum + 11
      | .opSetSecurity _ | .setSecurity _ _ _ | .opSetBaud _ | .setBaud _ _ _
      | .opSetDatalen _ | .setDatalen _ _ _ =>
          request = 14 ∧ answer = s.params.ackSetSysPara + 11
      | .opGenImage | .genImage _ _ => request = 12 ∧ answer = s.params.ackGenImage + 11
      | _ => False) →
    s.noReset 4 = true → exec i s = .next t →
      t.params = s.params ∧ t.fsm = .idle ∧ t.addr = s.addr ∧
      t.consumerValid = s.consumerValid ∧ t.sessionP = s.sessionP ∧ t.rxcount = s.rxcount ∧
      t.xbuf = s.xbuf ∧ t.xlen = s.xlen ∧
      (t.dlenSel = s.dlenSel ∨ (∃ n, i = .opSetDatalen n) ∨ ∃ a v c, i = .setDatalen a v c) ∧
      ((t.baudSel = s.baudSel ∧ t.speed = s.speed) ∨
        (∃ n, i = .opSetBaud n) ∨ ∃ a v c, i = .setBaud a v c) ∧
      deliveriesOf t.calls = deliveriesOf s.calls ∧ s.out <+: t.out ∧
      (∀ x, request ≤ x → t.txbuf.read x = s.txbuf.read x) ∧
      (∀ x, answer ≤ x → t.rxbuf.read x = s.rxbuf.read x)

/-! ## Reset -/

/-- R40 (the spec's decision D5): the values after reset, under every binding; the lengths are 0 and no
buffer element holds a value. (`State.reset` is this under the default binding P0, log entry 1.) -/
def Obligations.ResetValues : Prop :=
  ∀ p : Params, let s := State.resetWith p
    s.addr = p.addrDefault ∧ s.dlenSel = p.dlenReset ∧ s.baudSel = p.baudReset ∧
    s.consumerValid = false ∧ s.fsm = .idle ∧ s.sessionP = 0#9 ∧ s.rxcount = 0#32 ∧
    s.txlen = 0 ∧ s.rxlen = 0 ∧ s.xlen = 0 ∧
    (∀ i, s.txbuf.read i = none ∧ s.rxbuf.read i = none ∧ s.xbuf.read i = none) ∧
    State.reset = State.resetWith Params.p0

/-- R290 (the spec's decision D21) and R292: the reset event lands in any state, also while an upload
runs; every element of the block takes its reset value, and what is outside the block stays, but for
`OUT`, which begins anew, the model's reading of R52's "since reset" (log entry 6). -/
def Obligations.ResetEventLandsInAnyState : Prop :=
  ∀ (s : State) (rest : List Input), s.inputs = .reset :: rest →
    ∃ t : State, step s = .next t ∧ t = State.resetEvent { s with inputs := rest } ∧
      t.addr = s.params.addrDefault ∧ t.dlenSel = s.params.dlenReset ∧
      t.baudSel = s.params.baudReset ∧ t.consumerValid = false ∧ t.fsm = .idle ∧
      t.sessionP = 0#9 ∧ t.rxcount = 0#32 ∧ t.txlen = 0 ∧ t.rxlen = 0 ∧ t.xlen = 0 ∧
      (∀ i, t.txbuf.read i = none ∧ t.rxbuf.read i = none ∧ t.xbuf.read i = none) ∧
      t.result = none ∧ t.out = [] ∧ t.params = s.params ∧ t.inq = s.inq ∧ t.speed = s.speed ∧
      t.env = s.env ∧ t.envIndex = s.envIndex ∧ t.inputs = rest ∧ t.calls = s.calls

/-! ## The step -/

/-- The model's instruction port (log entry 5; a word's layout: log entry 18): a step runs the instruction
that is presented, one that is issued and one that presented bytes decode to, if the block takes it now
(idle, a frame of the module's, or the upload-image request where it is sent, log entry 10); and after
`withFetchWord` that is the instruction of the word, in the state that is ready for it. -/
def Obligations.StepRunsTheDecodedInstruction : Prop :=
  ∀ (s : State) (i : Instr) (bs : List Byte) (rest : List Input) (nbits w : Nat),
    let taken := s.fsm = .idle ∨ i.fromModule = true ∨
      ((∃ a c, i = .upImage a c) ∧ s.fsm = .awaitingGenerateAck)
    (taken → s.inputs = .issue i :: rest → step s = exec i { s with inputs := rest }) ∧
    (taken → s.inputs = .code bs :: rest → decode s.params bs = .ok i →
      step s = exec i { s with inputs := rest }) ∧
    (decode s.params (layoutWord nbits w) = .ok i →
      step (s.withFetchWord nbits w) = exec i (s.readyFor i)) ∧
    (i.fromModule = true → s.readyFor i = s) ∧
    ((∃ a c, i = .upImage a c) → (s.readyFor i).fsm = .awaitingGenerateAck) ∧
    (i.fromModule = false → (∀ a c, i ≠ .upImage a c) → s.readyFor i = { s with fsm := .idle })

/-- R291 (the spec's decision D21): with nothing presented an idle block does nothing on its own. -/
def Obligations.IdleBlockWaits : Prop :=
  ∀ (s : State), s.fsm = .idle → s.inputs = [] → step s = .next s

/-! ## Encoding -/

/-- Decoding the bytes of a well-formed frame gives the frame's row back with every operand, for every
instruction that has an encoding, under every legal binding whose codes differ (R80, R87, R88; log entry 26).
-/
def Obligations.DecodeUndoesEncode : Prop :=
  ∀ (p : Params) (i : Instr) (bs : List Byte),
    p.ok = true → p.codesDistinct = true → wellFormed p i = true → encode p i = some bs →
      decode p bs = .ok i

/-- Whatever bytes decode, encoding gives exactly those bytes back: decoding drops no bit, of no buffer,
under any binding, one whose codes coincide included, where the row is the first match (log entry 26). -/
def Obligations.EncodeUndoesDecode : Prop :=
  ∀ (p : Params) (i : Instr) (bs : List Byte), decode p bs = .ok i → encode p i = some bs

/-- Words written out from spec/95_test_vectors.md (V43-1, V43-10, V42-9, V43-3's answer, V40-6) decode to
the rows they stand for, and a word with another start marker to none: under P0 (log entry 1), a word laid
out as log entry 18 says. -/
def Obligations.SampleWordsDecode : Prop :=
  decodeTableWord 128 0x1B000000000013070001FFFFFFFF01EF =
    some (.vfyPwd ⟨0xFF#8, 0xFF#8, 0xFF#8, 0xFF#8⟩ ⟨0#8, 0#8, 0#8, 0#8⟩ 0x001B#16) ∧
  decodeTableWord 112 0x1E0006040E050001FFFFFFFF01EF =
    some (.setBaud ⟨0xFF#8, 0xFF#8, 0xFF#8, 0xFF#8⟩ 6#8 0x001E#16) ∧
  decodeTableWord 96 0x0A0000030007FFFFFFFF01EF =
    some (.ackStatus ⟨0xFF#8, 0xFF#8, 0xFF#8, 0xFF#8⟩ 0#8 0x000A#16) ∧
  decodeTableWord 112 0x1100050000050007FFFFFFFF01EF =
    some (.ackTemplateNum ⟨0xFF#8, 0xFF#8, 0xFF#8, 0xFF#8⟩ 0#8 5#16 0x0011#16) ∧
  decodeTableWord 88 0x0A00020008FFFFFFFF01EF =
    some (.frameEnd ⟨0xFF#8, 0xFF#8, 0xFF#8, 0xFF#8⟩ 2#16 [] 0x000A#16) ∧
  decodeTableWord 96 0x0A0000030007FFFFFFFF01EE = none

/-! ## Invariants -/

/-- Every step, from every state that meets it, keeps the invariant: a legal `BAUD_SEL` (R24); a legal
`SESSION_P` and a registered consumer while an upload runs (R26, R30); canonical buffers within their
capacities and filled up to their lengths (R32 to R35). -/
def Obligations.StepKeepsTheInvariant : Prop :=
  ∀ s t : State, s.Inv → step s = .next t → t.Inv

/-- The state after reset meets the invariant, under every legal binding. -/
def Obligations.ResetMeetsTheInvariant : Prop :=
  ∀ p : Params, p.ok = true → (State.resetWith p).Inv

/-- R35: no rule reads a buffer element that holds no value: no step, from any state at all, ends in the
fault that such a read is. -/
def Obligations.NoStepReadsAnUnwrittenElement : Prop :=
  ∀ (s : State) (f : Fault), step s ≠ .fault f

/-- R36: no operation depends on what an earlier one left in the buffers: forgetting the buffers before an
instruction changes nothing of what it does, but for what it leaves in them. -/
def Obligations.BufferContentsDoNotMatter : Prop :=
  ∀ (i : Instr) (s : State),
    let forget : State → State := fun u =>
      { u with txbuf := [], txlen := 0, rxbuf := [], rxlen := 0, xbuf := [], xlen := 0 }
    match exec i s, exec i (forget s) with
    | .next t, .next u => forget t = forget u
    | .fault f, .fault g => f = g
    | .refused r, .refused q => r = q
    | _, _ => False

/-- R52 and R64: nothing ever removes or reorders bytes of `OUT`: a step only appends to it, unless a
reset lands in it, after which every element of the block has its reset value and `OUT` begins anew (the
model's reading of "since reset", log entry 6). -/
def Obligations.OutOnlyGrows : Prop :=
  ∀ s t : State, step s = .next t →
    s.out <+: t.out ∨
    t = { State.resetWith s.params with
      inq := t.inq, speed := t.speed, env := t.env, envIndex := t.envIndex, inputs := t.inputs
      calls := t.calls }

/-! ## Commands, continued -/

/-- R183 and R184 (layouts: general knowledge, log entry 17), in every environment: READ_SYS_PARA and
TEMPLATE_NUM are their exchange; the fields are read where the status is success and only there, and an
error of the exchange is the command's. -/
def Obligations.SnapshotCommandsFollowTheirExchange : Prop :=
  ∀ (s : State), s.params.ok = true → s.fsm = .idle → 1 ≤ s.params.maxPayload →
    (∃ u : State, exec (.opExchange .readSysPara [s.params.icReadSysPara]) s = .next u ∧
      (∀ st body, u.result = some (.ok (.exchanged st body)) → body.length = 16 ∧
        exec .opReadSysPara s = .next { u with
          result := some (.ok (.sysPara st (if st = s.params.stSuccess then
            some (SysParams.ofBytes body,
              decide ((SysParams.ofBytes body).identifier = s.params.sysIdConst))
            else none))) }) ∧
      ((∀ st body, u.result ≠ some (.ok (.exchanged st body))) →
        exec .opReadSysPara s = .next u)) ∧
    (∃ u : State, exec (.opExchange .templateNum [s.params.icTemplateNum]) s = .next u ∧
      (∀ st fields, u.result = some (.ok (.exchanged st fields)) → ∃ n : Half,
        n.toNat = (fields.getD 0 0#8).toNat * 256 + (fields.getD 1 0#8).toNat ∧
        2 ≤ fields.length ∧
        exec .opTemplateNum s = .next { u with
          result := some (.ok (.templateNum st
            (if st = s.params.stSuccess then some n else none))) }) ∧
      ((∀ st fields, u.result ≠ some (.ok (.exchanged st fields))) →
        exec .opTemplateNum s = .next u))

/-- The model's choice (log entry 9): a request frame addressed to `ADDR` behaves as the operation that sends
it, in every state and every environment, errors and resets included; FRAME.COMMAND so in `Idle`. -/
def Obligations.RequestRowsRunAsTheirOperations : Prop :=
  ∀ (s : State) (pw : Bytes4) (v : Byte) (len cks : Half) (payload : List Byte),
    exec (.vfyPwd s.addr pw cks) s = exec (.opVfyPwd pw) s ∧
    exec (.readSysPara s.addr cks) s = exec .opReadSysPara s ∧
    exec (.templateNum s.addr cks) s = exec .opTemplateNum s ∧
    exec (.setBaud s.addr v cks) s = exec (.opSetBaud v.toNat) s ∧
    exec (.setSecurity s.addr v cks) s = exec (.opSetSecurity v.toNat) s ∧
    exec (.setDatalen s.addr v cks) s = exec (.opSetDatalen v.toNat) s ∧
    exec (.genImage s.addr cks) s = exec .opGenImage s ∧
    (s.fsm = .idle →
      exec (.frameCommand s.addr len payload cks) s = exec (.opSendFrame .command payload) s)

/-! ## Reset, continued -/

/-- The model's reading of R290 (log entry 8): when a reset lands in SEND_FRAME's write, the accepted
prefix has gone out, as the record of the calls says (of a frame of any kind, log entry 24); when it lands in
the abort action's flush, `IN` is
empty; in both cases the block is reset and the operation abandoned without a result. -/
def Obligations.ResetInsideSendOrFlush : Prop :=
  ∀ (s : State), (s.choiceAt 0).reset = true →
    let c := s.choiceAt 0
    (∀ (kind : Kind) (payload : List Byte),
      payload.length ≤ s.params.maxPayload → payload.length ≤ 65533 →
      let frame := encodeFrame s.params kind payload s.addr
      exec (.opSendFrame kind payload) s =
        .next (State.resetEvent { s with
          inq := s.inq ++ c.arrived, env := s.env.drop 1, envIndex := s.envIndex + 1
          calls := s.calls ++ [.write frame (min c.count frame.length) c.error] })) ∧
    (∀ e : ErrorKind, flushes s.params e = true →
      takeError e s =
        State.resetEvent { s with
          inq := [], env := s.env.drop 1, envIndex := s.envIndex + 1
          calls := s.calls ++ [.flush] })
end

