-- ==== Sys2Proof/Laws/Claims.lean ====
section
/-! SUPPORT. One lemma per field of the states the claims name (Safety.lean), true by rfl. -/

namespace Sys2Proof.Machine

/-! ## afterExchange -/

@[simp] theorem State.afterExchange_params (s : State) (fr an : List Byte) (t : Nat) :
    (s.afterExchange fr an t).params = s.params := rfl
@[simp] theorem State.afterExchange_addr (s : State) (fr an : List Byte) (t : Nat) :
    (s.afterExchange fr an t).addr = s.addr := rfl
@[simp] theorem State.afterExchange_dlenSel (s : State) (fr an : List Byte) (t : Nat) :
    (s.afterExchange fr an t).dlenSel = s.dlenSel := rfl
@[simp] theorem State.afterExchange_baudSel (s : State) (fr an : List Byte) (t : Nat) :
    (s.afterExchange fr an t).baudSel = s.baudSel := rfl
@[simp] theorem State.afterExchange_consumerValid (s : State) (fr an : List Byte) (t : Nat) :
    (s.afterExchange fr an t).consumerValid = s.consumerValid := rfl
@[simp] theorem State.afterExchange_fsm (s : State) (fr an : List Byte) (t : Nat) :
    (s.afterExchange fr an t).fsm = s.fsm := rfl
@[simp] theorem State.afterExchange_sessionP (s : State) (fr an : List Byte) (t : Nat) :
    (s.afterExchange fr an t).sessionP = s.sessionP := rfl
@[simp] theorem State.afterExchange_rxcount (s : State) (fr an : List Byte) (t : Nat) :
    (s.afterExchange fr an t).rxcount = s.rxcount := rfl
@[simp] theorem State.afterExchange_txbuf (s : State) (fr an : List Byte) (t : Nat) :
    (s.afterExchange fr an t).txbuf = s.txbuf.writeBytes 0 fr := rfl
@[simp] theorem State.afterExchange_txlen (s : State) (fr an : List Byte) (t : Nat) :
    (s.afterExchange fr an t).txlen = fr.length := rfl
@[simp] theorem State.afterExchange_rxbuf (s : State) (fr an : List Byte) (t : Nat) :
    (s.afterExchange fr an t).rxbuf = s.rxbuf.writeBytes 0 an := rfl
@[simp] theorem State.afterExchange_rxlen (s : State) (fr an : List Byte) (t : Nat) :
    (s.afterExchange fr an t).rxlen = an.length := rfl
@[simp] theorem State.afterExchange_xbuf (s : State) (fr an : List Byte) (t : Nat) :
    (s.afterExchange fr an t).xbuf = s.xbuf := rfl
@[simp] theorem State.afterExchange_xlen (s : State) (fr an : List Byte) (t : Nat) :
    (s.afterExchange fr an t).xlen = s.xlen := rfl
@[simp] theorem State.afterExchange_out (s : State) (fr an : List Byte) (t : Nat) :
    (s.afterExchange fr an t).out = s.out ++ fr := rfl
@[simp] theorem State.afterExchange_inq (s : State) (fr an : List Byte) (t : Nat) :
    (s.afterExchange fr an t).inq = (s.inAt 1).drop an.length := rfl
@[simp] theorem State.afterExchange_speed (s : State) (fr an : List Byte) (t : Nat) :
    (s.afterExchange fr an t).speed = s.speed := rfl
@[simp] theorem State.afterExchange_env (s : State) (fr an : List Byte) (t : Nat) :
    (s.afterExchange fr an t).env = s.env.drop 2 := rfl
@[simp] theorem State.afterExchange_envIndex (s : State) (fr an : List Byte) (t : Nat) :
    (s.afterExchange fr an t).envIndex = s.envIndex + 2 := rfl
@[simp] theorem State.afterExchange_inputs (s : State) (fr an : List Byte) (t : Nat) :
    (s.afterExchange fr an t).inputs = s.inputs := rfl
@[simp] theorem State.afterExchange_result (s : State) (fr an : List Byte) (t : Nat) :
    (s.afterExchange fr an t).result = s.result := rfl
@[simp] theorem State.afterExchange_calls (s : State) (fr an : List Byte) (t : Nat) :
    (s.afterExchange fr an t).calls =
      s.calls ++ [.write fr fr.length false, .read an.length t an false] := rfl

/-! ## afterRead -/

@[simp] theorem State.afterRead_params (s : State) (an : List Byte) (t : Nat) :
    (s.afterRead an t).params = s.params := rfl
@[simp] theorem State.afterRead_addr (s : State) (an : List Byte) (t : Nat) :
    (s.afterRead an t).addr = s.addr := rfl
@[simp] theorem State.afterRead_dlenSel (s : State) (an : List Byte) (t : Nat) :
    (s.afterRead an t).dlenSel = s.dlenSel := rfl
@[simp] theorem State.afterRead_baudSel (s : State) (an : List Byte) (t : Nat) :
    (s.afterRead an t).baudSel = s.baudSel := rfl
@[simp] theorem State.afterRead_consumerValid (s : State) (an : List Byte) (t : Nat) :
    (s.afterRead an t).consumerValid = s.consumerValid := rfl
@[simp] theorem State.afterRead_fsm (s : State) (an : List Byte) (t : Nat) :
    (s.afterRead an t).fsm = s.fsm := rfl
@[simp] theorem State.afterRead_sessionP (s : State) (an : List Byte) (t : Nat) :
    (s.afterRead an t).sessionP = s.sessionP := rfl
@[simp] theorem State.afterRead_rxcount (s : State) (an : List Byte) (t : Nat) :
    (s.afterRead an t).rxcount = s.rxcount := rfl
@[simp] theorem State.afterRead_txbuf (s : State) (an : List Byte) (t : Nat) :
    (s.afterRead an t).txbuf = s.txbuf := rfl
@[simp] theorem State.afterRead_txlen (s : State) (an : List Byte) (t : Nat) :
    (s.afterRead an t).txlen = s.txlen := rfl
@[simp] theorem State.afterRead_rxbuf (s : State) (an : List Byte) (t : Nat) :
    (s.afterRead an t).rxbuf = s.rxbuf.writeBytes 0 an := rfl
@[simp] theorem State.afterRead_rxlen (s : State) (an : List Byte) (t : Nat) :
    (s.afterRead an t).rxlen = an.length := rfl
@[simp] theorem State.afterRead_xbuf (s : State) (an : List Byte) (t : Nat) :
    (s.afterRead an t).xbuf = s.xbuf := rfl
@[simp] theorem State.afterRead_xlen (s : State) (an : List Byte) (t : Nat) :
    (s.afterRead an t).xlen = s.xlen := rfl
@[simp] theorem State.afterRead_out (s : State) (an : List Byte) (t : Nat) :
    (s.afterRead an t).out = s.out := rfl
@[simp] theorem State.afterRead_inq (s : State) (an : List Byte) (t : Nat) :
    (s.afterRead an t).inq = (s.inAt 0).drop an.length := rfl
@[simp] theorem State.afterRead_speed (s : State) (an : List Byte) (t : Nat) :
    (s.afterRead an t).speed = s.speed := rfl
@[simp] theorem State.afterRead_env (s : State) (an : List Byte) (t : Nat) :
    (s.afterRead an t).env = s.env.drop 1 := rfl
@[simp] theorem State.afterRead_envIndex (s : State) (an : List Byte) (t : Nat) :
    (s.afterRead an t).envIndex = s.envIndex + 1 := rfl
@[simp] theorem State.afterRead_inputs (s : State) (an : List Byte) (t : Nat) :
    (s.afterRead an t).inputs = s.inputs := rfl
@[simp] theorem State.afterRead_result (s : State) (an : List Byte) (t : Nat) :
    (s.afterRead an t).result = s.result := rfl
@[simp] theorem State.afterRead_calls (s : State) (an : List Byte) (t : Nat) :
    (s.afterRead an t).calls = s.calls ++ [.read an.length t an false] := rfl

/-! ## afterTransfer -/

@[simp] theorem State.afterTransfer_params (s : State) (fr raw : List Byte) :
    (s.afterTransfer fr raw).params = s.params := rfl
@[simp] theorem State.afterTransfer_addr (s : State) (fr raw : List Byte) :
    (s.afterTransfer fr raw).addr = s.addr := rfl
@[simp] theorem State.afterTransfer_dlenSel (s : State) (fr raw : List Byte) :
    (s.afterTransfer fr raw).dlenSel = s.dlenSel := rfl
@[simp] theorem State.afterTransfer_baudSel (s : State) (fr raw : List Byte) :
    (s.afterTransfer fr raw).baudSel = s.baudSel := rfl
@[simp] theorem State.afterTransfer_consumerValid (s : State) (fr raw : List Byte) :
    (s.afterTransfer fr raw).consumerValid = s.consumerValid := rfl
@[simp] theorem State.afterTransfer_fsm (s : State) (fr raw : List Byte) :
    (s.afterTransfer fr raw).fsm = s.fsm := rfl
@[simp] theorem State.afterTransfer_sessionP (s : State) (fr raw : List Byte) :
    (s.afterTransfer fr raw).sessionP = s.sessionP := rfl
@[simp] theorem State.afterTransfer_rxcount (s : State) (fr raw : List Byte) :
    (s.afterTransfer fr raw).rxcount = s.rxcount + s.sessionP.setWidth 32 := rfl
@[simp] theorem State.afterTransfer_txbuf (s : State) (fr raw : List Byte) :
    (s.afterTransfer fr raw).txbuf = s.txbuf := rfl
@[simp] theorem State.afterTransfer_txlen (s : State) (fr raw : List Byte) :
    (s.afterTransfer fr raw).txlen = s.txlen := rfl
@[simp] theorem State.afterTransfer_rxbuf (s : State) (fr raw : List Byte) :
    (s.afterTransfer fr raw).rxbuf = s.rxbuf.writeBytes 0 fr := rfl
@[simp] theorem State.afterTransfer_rxlen (s : State) (fr raw : List Byte) :
    (s.afterTransfer fr raw).rxlen = fr.length := rfl
@[simp] theorem State.afterTransfer_xbuf (s : State) (fr raw : List Byte) :
    (s.afterTransfer fr raw).xbuf = s.xbuf.writeBytes 0 (expandBytes raw) := rfl
@[simp] theorem State.afterTransfer_xlen (s : State) (fr raw : List Byte) :
    (s.afterTransfer fr raw).xlen = 2 * raw.length := rfl
@[simp] theorem State.afterTransfer_out (s : State) (fr raw : List Byte) :
    (s.afterTransfer fr raw).out = s.out := rfl
@[simp] theorem State.afterTransfer_inq (s : State) (fr raw : List Byte) :
    (s.afterTransfer fr raw).inq = (s.inAt 0).drop fr.length ++ (s.choiceAt 1).arrived := rfl
@[simp] theorem State.afterTransfer_speed (s : State) (fr raw : List Byte) :
    (s.afterTransfer fr raw).speed = s.speed := rfl
@[simp] theorem State.afterTransfer_env (s : State) (fr raw : List Byte) :
    (s.afterTransfer fr raw).env = s.env.drop 2 := rfl
@[simp] theorem State.afterTransfer_envIndex (s : State) (fr raw : List Byte) :
    (s.afterTransfer fr raw).envIndex = s.envIndex + 2 := rfl
@[simp] theorem State.afterTransfer_inputs (s : State) (fr raw : List Byte) :
    (s.afterTransfer fr raw).inputs = s.inputs := rfl
@[simp] theorem State.afterTransfer_result (s : State) (fr raw : List Byte) :
    (s.afterTransfer fr raw).result = s.result := rfl
@[simp] theorem State.afterTransfer_calls (s : State) (fr raw : List Byte) :
    (s.afterTransfer fr raw).calls =
      s.calls ++ [.read fr.length Config.timeoutStream fr false, .deliver (expandBytes raw)] := rfl

end Sys2Proof.Machine
end

