-- ==== Sys2Proof/Laws/Frame.lean ====
section
/-! SUPPORT. The laws of the frame format: bytes and halves, the size of a frame, splitting what was
joined, and the checksum of an encoded frame. -/

namespace Sys2Proof

/-- `be16(h, l) = h*256 + l` (R12). -/
theorem be16_toNat (h l : Byte) : (be16 h l).toNat = h.toNat * 256 + l.toNat := by
  have hl : l.toNat < 2 ^ 8 := l.isLt
  unfold be16
  rw [BitVec.toNat_append, ← Nat.shiftLeft_add_eq_or_of_lt hl, Nat.shiftLeft_eq]

theorem hiByte_toNat (v : Half) : (hiByte v).toNat = v.toNat / 256 := by
  have hv : v.toNat < 2 ^ 16 := v.isLt
  unfold hiByte
  rw [BitVec.extractLsb'_toNat, Nat.shiftRight_eq_div_pow]
  omega

theorem loByte_toNat (v : Half) : (loByte v).toNat = v.toNat % 256 := by
  unfold loByte
  rw [BitVec.extractLsb'_toNat, Nat.shiftRight_zero]

@[simp] theorem be16_hiByte_loByte (v : Half) : be16 (hiByte v) (loByte v) = v := by
  apply BitVec.eq_of_toNat_eq
  rw [be16_toNat, hiByte_toNat, loByte_toNat]
  omega

@[simp] theorem hiByte_be16 (h l : Byte) : hiByte (be16 h l) = h := by
  have hl : l.toNat < 256 := l.isLt
  apply BitVec.eq_of_toNat_eq
  rw [hiByte_toNat, be16_toNat]
  omega

@[simp] theorem loByte_be16 (h l : Byte) : loByte (be16 h l) = l := by
  have hl : l.toNat < 256 := l.isLt
  apply BitVec.eq_of_toNat_eq
  rw [loByte_toNat, be16_toNat]
  omega

theorem lengthField_toNat (L : Nat) (h : L ≤ maxLength16) : (lengthField L).toNat = L + 2 := by
  unfold lengthField checksumSize maxLength16 at *
  rw [BitVec.toNat_ofNat]
  omega

@[simp] theorem Bytes4.toList_length (a : Bytes4) : a.toList.length = 4 := rfl

/-- A frame has eleven bytes more than its payload (R80, R86). -/
@[simp] theorem joinFrame_length (f : FrameFields) :
    (joinFrame f).length = f.payload.length + 11 := by
  simp [joinFrame]
  omega

@[simp] theorem encodeFrame_length (p : Params) (k : Kind) (payload : List Byte) (a : Bytes4) :
    (encodeFrame p k payload a).length = payload.length + 11 := by
  simp [encodeFrame]

@[simp] theorem frameBytes_length (p : Params) (k : Kind) (a : Bytes4) (len : Half)
    (payload : List Byte) (c : Half) :
    (frameBytes p k a len payload c).length = payload.length + 11 := by
  simp [frameBytes]

/-- A joined frame as header, payload and checksum. -/
theorem joinFrame_eq (f : FrameFields) :
    joinFrame f = f.start0 :: f.start1 :: f.addr.b0 :: f.addr.b1 :: f.addr.b2 :: f.addr.b3 ::
      f.kbyte :: hiByte f.length :: loByte f.length ::
      (f.payload ++ [hiByte f.checksum, loByte f.checksum]) := by
  simp [joinFrame, Bytes4.toList]

/-- DECODE takes apart what was put together: no field is lost (R125, R127). -/
@[simp] theorem splitFrame_joinFrame (f : FrameFields) : splitFrame (joinFrame f) = f := by
  have hlen := joinFrame_length f
  unfold splitFrame
  rw [hlen]
  have e1 : byteAt (joinFrame f) (f.payload.length + 11 - 2) = hiByte f.checksum := by
    simp [joinFrame_eq, byteAt, List.getD]
  have e2 : byteAt (joinFrame f) (f.payload.length + 11 - 1) = loByte f.checksum := by
    simp [joinFrame_eq, byteAt, List.getD]
  rw [e1, e2]
  simp [joinFrame_eq, byteAt, headerSize, checksumSize]

theorem sumBytes_append (a b : List Byte) : sumBytes (a ++ b) = sumBytes a + sumBytes b := by
  induction a with
  | nil => simp [sumBytes]
  | cons x a ih => simp [sumBytes, ih]; omega

theorem sumBytes_eq_sum (bs : List Byte) : sumBytes bs = (bs.map BitVec.toNat).sum := by
  induction bs with
  | nil => rfl
  | cons b bs ih => simp [sumBytes, ih]

/-- The covered region of a joined frame: kind, the length bytes, payload (R85). -/
theorem coveredBytes_joinFrame (f : FrameFields) :
    coveredBytes (joinFrame f) = f.kbyte :: hiByte f.length :: loByte f.length :: f.payload := by
  unfold coveredBytes
  rw [joinFrame_length]
  simp [joinFrame_eq]

/-- An encoded frame passes VERIFY_CHECKSUM (R127). -/
@[simp] theorem verifyChecksum_encodeFrame (p : Params) (k : Kind) (payload : List Byte)
    (a : Bytes4) : verifyChecksum (encodeFrame p k payload a) = true := by
  have hs := splitFrame_joinFrame
    { start0 := p.start0, start1 := p.start1, addr := a, kbyte := kindByte p k,
      length := lengthField payload.length, payload := payload,
      checksum := checksum p k payload.length payload }
  have hc := congrArg FrameFields.checksum hs
  simp only [splitFrame] at hc
  unfold verifyChecksum encodeFrame
  rw [hc, coveredBytes_joinFrame]
  simp [checksum, sumBytes, Nat.add_assoc]

/-- `kind_of` undoes `kind_byte` under a legal binding (R83). -/
theorem kindOf_kindByte (p : Params) (hp : p.ok = true) (k : Kind) :
    kindOf p (kindByte p k) = some k := by
  simp only [Params.ok, Bool.and_eq_true, bne_iff_ne, ne_eq] at hp
  obtain ⟨⟨⟨⟨⟨⟨⟨⟨⟨⟨⟨⟨⟨⟨⟨⟨h1, h2⟩, h3⟩, h4⟩, h5⟩, h6⟩, -⟩, -⟩, -⟩, -⟩, -⟩, -⟩, -⟩, -⟩, -⟩, -⟩, -⟩ := hp
  cases k <;> simp [kindOf, kindByte, Ne.symm, *, eq_comm]

/-- The expansion is exactly twice as long (R212). -/
@[simp] theorem expandBytes_length (bs : List Byte) :
    (expandBytes bs).length = 2 * bs.length := by
  induction bs with
  | nil => rfl
  | cons b bs ih => simp [expandBytes, ih]; omega

@[simp] theorem SysParams.toBytes_length (b : SysParams) : b.toBytes.length = 16 := rfl

/-- The body's fields are read where they were put (R90). -/
@[simp] theorem SysParams.ofBytes_toBytes (b : SysParams) : SysParams.ofBytes b.toBytes = b := by
  simp [ofBytes, toBytes, byteAt, Bytes4.toList]

/-! ## Decoding and the covered region -/

theorem hiByte_eq (v : Half) : hiByte v = BitVec.ofNat 8 (v.toNat / 256) := by
  apply BitVec.eq_of_toNat_eq
  rw [hiByte_toNat, BitVec.toNat_ofNat]
  have := v.isLt
  omega

theorem loByte_eq (v : Half) : loByte v = BitVec.ofNat 8 (v.toNat % 256) := by
  apply BitVec.eq_of_toNat_eq
  rw [loByte_toNat, BitVec.toNat_ofNat]
  omega

/-- A buffer long enough is the join of the fields DECODE splits it into. -/
theorem joinFrame_splitFrame (buf : List Byte) (h : 11 ≤ buf.length) :
    joinFrame (splitFrame buf) = buf := by
  obtain ⟨b0, b1, b2, b3, b4, b5, b6, b7, b8, m, x, y, rfl⟩ :
      ∃ b0 b1 b2 b3 b4 b5 b6 b7 b8 m x y,
        buf = b0 :: b1 :: b2 :: b3 :: b4 :: b5 :: b6 :: b7 :: b8 :: (m ++ [x, y]) := by
    match buf, h with
    | b0 :: b1 :: b2 :: b3 :: b4 :: b5 :: b6 :: b7 :: b8 :: r, h =>
      have hr : 2 ≤ r.length := by simp at h; omega
      refine ⟨b0, b1, b2, b3, b4, b5, b6, b7, b8, r.take (r.length - 2), r[r.length - 2],
        r[r.length - 1], ?_⟩
      congr 9
      conv_lhs => rw [← List.take_append_drop (r.length - 2) r]
      congr 1
      rw [List.drop_eq_getElem_cons (by omega), List.drop_eq_getElem_cons (by omega),
        List.drop_eq_nil_of_le (by omega)]
      congr 2
      congr 1
      omega
  have hj := splitFrame_joinFrame
    ⟨b0, b1, ⟨b2, b3, b4, b5⟩, b6, be16 b7 b8, m, be16 x y⟩
  have he : joinFrame ⟨b0, b1, ⟨b2, b3, b4, b5⟩, b6, be16 b7 b8, m, be16 x y⟩ =
      b0 :: b1 :: b2 :: b3 :: b4 :: b5 :: b6 :: b7 :: b8 :: (m ++ [x, y]) := by
    simp [joinFrame_eq]
  rw [← he, hj]

theorem kindByte_of_kindOf {p : Params} {b : Byte} {k : Kind} (h : kindOf p b = some k) :
    kindByte p k = b := by
  unfold kindOf at h
  split at h
  · cases h; exact Eq.symm ‹_›
  split at h
  · cases h; exact Eq.symm ‹_›
  split at h
  · cases h; exact Eq.symm ‹_›
  split at h
  · cases h; exact Eq.symm ‹_›
  cases h

theorem SysParams.toBytes_ofBytes (l : List Byte) (h : l.length = 16) :
    (SysParams.ofBytes l).toBytes = l := by
  match l, h with
  | [_, _, _, _, _, _, _, _, _, _, _, _, _, _, _, _], _ =>
    simp [SysParams.ofBytes, SysParams.toBytes, byteAt, Bytes4.toList]

/-- Replacing one byte changes the sum by the difference of the two. -/
theorem sumBytes_set (l : List Byte) (i : Nat) (v : Byte) (h : i < l.length) :
    sumBytes (l.set i v) + (l.getD i 0#8).toNat = sumBytes l + v.toNat := by
  induction l generalizing i with
  | nil => simp at h
  | cons x l ih =>
    cases i with
    | zero => simp [sumBytes]; omega
    | succ i =>
      simp [sumBytes] at *
      have := ih i h
      omega

theorem coveredBytes_set (l : List Byte) (i : Nat) (v : Byte) :
    coveredBytes (l.set i v) =
      if i < 6 then coveredBytes l else (coveredBytes l).set (i - 6) v := by
  unfold coveredBytes
  split
  · rename_i h
    rw [List.drop_set, if_pos h]
    simp
  · rename_i h
    rw [List.drop_set, if_neg h]
    simp [List.take_set]

theorem coveredBytes_getD (l : List Byte) (i : Nat) (h6 : 6 ≤ i) (hi : i < l.length - 2) :
    (coveredBytes l).getD (i - 6) 0#8 = l.getD i 0#8 := by
  unfold coveredBytes
  simp [List.getD, List.getElem?_take]
  rw [if_pos (by omega)]
  congr 2
  omega

/-- What the decoder makes of a frame of a given kind, whatever its fields. -/
theorem decode_frameBytes (p : Params) (hp : p.ok = true) (k : Kind) (a : Bytes4) (len : Half)
    (payload : List Byte) (c : Half) :
    decode p (frameBytes p k a len payload c) = match k with
      | .command =>
          .ok (decodeRequest p ⟨p.start0, p.start1, a, kindByte p k, len, payload, c⟩)
      | .data => .ok (.frameData a len payload c)
      | .acknowledge => .ok (decodeAck ⟨p.start0, p.start1, a, kindByte p k, len, payload, c⟩)
      | .endOfData => .ok (.frameEnd a len payload c) := by
  unfold decode
  rw [if_neg (by simp)]
  have h : splitFrame (frameBytes p k a len payload c) =
      ⟨p.start0, p.start1, a, kindByte p k, len, payload, c⟩ := splitFrame_joinFrame _
  rw [h]
  simp only [kindOf_kindByte p hp]
  cases k <;> simp

end Sys2Proof
end

