-- ==== Sys2Proof/Laws/State.lean ====
section
/-! SUPPORT. One lemma per field per named update of the state, true by rfl, so that no later proof
unfolds a record update. -/

namespace Sys2Proof.Machine

/-! ## setAddr -/

@[simp] theorem State.setAddr_params (s : State) (a : Bytes4) :
    (s.setAddr a).params = s.params := rfl
@[simp] theorem State.setAddr_addr (s : State) (a : Bytes4) : (s.setAddr a).addr = a := rfl
@[simp] theorem State.setAddr_dlenSel (s : State) (a : Bytes4) :
    (s.setAddr a).dlenSel = s.dlenSel := rfl
@[simp] theorem State.setAddr_baudSel (s : State) (a : Bytes4) :
    (s.setAddr a).baudSel = s.baudSel := rfl
@[simp] theorem State.setAddr_consumerValid (s : State) (a : Bytes4) :
    (s.setAddr a).consumerValid = s.consumerValid := rfl
@[simp] theorem State.setAddr_fsm (s : State) (a : Bytes4) : (s.setAddr a).fsm = s.fsm := rfl
@[simp] theorem State.setAddr_sessionP (s : State) (a : Bytes4) :
    (s.setAddr a).sessionP = s.sessionP := rfl
@[simp] theorem State.setAddr_rxcount (s : State) (a : Bytes4) :
    (s.setAddr a).rxcount = s.rxcount := rfl
@[simp] theorem State.setAddr_txbuf (s : State) (a : Bytes4) : (s.setAddr a).txbuf = s.txbuf := rfl
@[simp] theorem State.setAddr_txlen (s : State) (a : Bytes4) : (s.setAddr a).txlen = s.txlen := rfl
@[simp] theorem State.setAddr_rxbuf (s : State) (a : Bytes4) : (s.setAddr a).rxbuf = s.rxbuf := rfl
@[simp] theorem State.setAddr_rxlen (s : State) (a : Bytes4) : (s.setAddr a).rxlen = s.rxlen := rfl
@[simp] theorem State.setAddr_xbuf (s : State) (a : Bytes4) : (s.setAddr a).xbuf = s.xbuf := rfl
@[simp] theorem State.setAddr_xlen (s : State) (a : Bytes4) : (s.setAddr a).xlen = s.xlen := rfl
@[simp] theorem State.setAddr_out (s : State) (a : Bytes4) : (s.setAddr a).out = s.out := rfl
@[simp] theorem State.setAddr_inq (s : State) (a : Bytes4) : (s.setAddr a).inq = s.inq := rfl
@[simp] theorem State.setAddr_speed (s : State) (a : Bytes4) : (s.setAddr a).speed = s.speed := rfl
@[simp] theorem State.setAddr_env (s : State) (a : Bytes4) : (s.setAddr a).env = s.env := rfl
@[simp] theorem State.setAddr_envIndex (s : State) (a : Bytes4) :
    (s.setAddr a).envIndex = s.envIndex := rfl
@[simp] theorem State.setAddr_inputs (s : State) (a : Bytes4) :
    (s.setAddr a).inputs = s.inputs := rfl
@[simp] theorem State.setAddr_result (s : State) (a : Bytes4) :
    (s.setAddr a).result = s.result := rfl
@[simp] theorem State.setAddr_calls (s : State) (a : Bytes4) : (s.setAddr a).calls = s.calls := rfl

/-! ## setDlenSel -/

@[simp] theorem State.setDlenSel_params (s : State) (n : Nat) :
    (s.setDlenSel n).params = s.params := rfl
@[simp] theorem State.setDlenSel_addr (s : State) (n : Nat) : (s.setDlenSel n).addr = s.addr := rfl
@[simp] theorem State.setDlenSel_dlenSel (s : State) (n : Nat) :
    (s.setDlenSel n).dlenSel = BitVec.ofNat 2 n := rfl
@[simp] theorem State.setDlenSel_baudSel (s : State) (n : Nat) :
    (s.setDlenSel n).baudSel = s.baudSel := rfl
@[simp] theorem State.setDlenSel_consumerValid (s : State) (n : Nat) :
    (s.setDlenSel n).consumerValid = s.consumerValid := rfl
@[simp] theorem State.setDlenSel_fsm (s : State) (n : Nat) : (s.setDlenSel n).fsm = s.fsm := rfl
@[simp] theorem State.setDlenSel_sessionP (s : State) (n : Nat) :
    (s.setDlenSel n).sessionP = s.sessionP := rfl
@[simp] theorem State.setDlenSel_rxcount (s : State) (n : Nat) :
    (s.setDlenSel n).rxcount = s.rxcount := rfl
@[simp] theorem State.setDlenSel_txbuf (s : State) (n : Nat) :
    (s.setDlenSel n).txbuf = s.txbuf := rfl
@[simp] theorem State.setDlenSel_txlen (s : State) (n : Nat) :
    (s.setDlenSel n).txlen = s.txlen := rfl
@[simp] theorem State.setDlenSel_rxbuf (s : State) (n : Nat) :
    (s.setDlenSel n).rxbuf = s.rxbuf := rfl
@[simp] theorem State.setDlenSel_rxlen (s : State) (n : Nat) :
    (s.setDlenSel n).rxlen = s.rxlen := rfl
@[simp] theorem State.setDlenSel_xbuf (s : State) (n : Nat) : (s.setDlenSel n).xbuf = s.xbuf := rfl
@[simp] theorem State.setDlenSel_xlen (s : State) (n : Nat) : (s.setDlenSel n).xlen = s.xlen := rfl
@[simp] theorem State.setDlenSel_out (s : State) (n : Nat) : (s.setDlenSel n).out = s.out := rfl
@[simp] theorem State.setDlenSel_inq (s : State) (n : Nat) : (s.setDlenSel n).inq = s.inq := rfl
@[simp] theorem State.setDlenSel_speed (s : State) (n : Nat) :
    (s.setDlenSel n).speed = s.speed := rfl
@[simp] theorem State.setDlenSel_env (s : State) (n : Nat) : (s.setDlenSel n).env = s.env := rfl
@[simp] theorem State.setDlenSel_envIndex (s : State) (n : Nat) :
    (s.setDlenSel n).envIndex = s.envIndex := rfl
@[simp] theorem State.setDlenSel_inputs (s : State) (n : Nat) :
    (s.setDlenSel n).inputs = s.inputs := rfl
@[simp] theorem State.setDlenSel_result (s : State) (n : Nat) :
    (s.setDlenSel n).result = s.result := rfl
@[simp] theorem State.setDlenSel_calls (s : State) (n : Nat) :
    (s.setDlenSel n).calls = s.calls := rfl

/-! ## setBaudSel -/

@[simp] theorem State.setBaudSel_params (s : State) (n : Nat) :
    (s.setBaudSel n).params = s.params := rfl
@[simp] theorem State.setBaudSel_addr (s : State) (n : Nat) : (s.setBaudSel n).addr = s.addr := rfl
@[simp] theorem State.setBaudSel_dlenSel (s : State) (n : Nat) :
    (s.setBaudSel n).dlenSel = s.dlenSel := rfl
@[simp] theorem State.setBaudSel_baudSel (s : State) (n : Nat) :
    (s.setBaudSel n).baudSel = BitVec.ofNat 4 n := rfl
@[simp] theorem State.setBaudSel_consumerValid (s : State) (n : Nat) :
    (s.setBaudSel n).consumerValid = s.consumerValid := rfl
@[simp] theorem State.setBaudSel_fsm (s : State) (n : Nat) : (s.setBaudSel n).fsm = s.fsm := rfl
@[simp] theorem State.setBaudSel_sessionP (s : State) (n : Nat) :
    (s.setBaudSel n).sessionP = s.sessionP := rfl
@[simp] theorem State.setBaudSel_rxcount (s : State) (n : Nat) :
    (s.setBaudSel n).rxcount = s.rxcount := rfl
@[simp] theorem State.setBaudSel_txbuf (s : State) (n : Nat) :
    (s.setBaudSel n).txbuf = s.txbuf := rfl
@[simp] theorem State.setBaudSel_txlen (s : State) (n : Nat) :
    (s.setBaudSel n).txlen = s.txlen := rfl
@[simp] theorem State.setBaudSel_rxbuf (s : State) (n : Nat) :
    (s.setBaudSel n).rxbuf = s.rxbuf := rfl
@[simp] theorem State.setBaudSel_rxlen (s : State) (n : Nat) :
    (s.setBaudSel n).rxlen = s.rxlen := rfl
@[simp] theorem State.setBaudSel_xbuf (s : State) (n : Nat) : (s.setBaudSel n).xbuf = s.xbuf := rfl
@[simp] theorem State.setBaudSel_xlen (s : State) (n : Nat) : (s.setBaudSel n).xlen = s.xlen := rfl
@[simp] theorem State.setBaudSel_out (s : State) (n : Nat) : (s.setBaudSel n).out = s.out := rfl
@[simp] theorem State.setBaudSel_inq (s : State) (n : Nat) : (s.setBaudSel n).inq = s.inq := rfl
@[simp] theorem State.setBaudSel_speed (s : State) (n : Nat) :
    (s.setBaudSel n).speed = s.speed := rfl
@[simp] theorem State.setBaudSel_env (s : State) (n : Nat) : (s.setBaudSel n).env = s.env := rfl
@[simp] theorem State.setBaudSel_envIndex (s : State) (n : Nat) :
    (s.setBaudSel n).envIndex = s.envIndex := rfl
@[simp] theorem State.setBaudSel_inputs (s : State) (n : Nat) :
    (s.setBaudSel n).inputs = s.inputs := rfl
@[simp] theorem State.setBaudSel_result (s : State) (n : Nat) :
    (s.setBaudSel n).result = s.result := rfl
@[simp] theorem State.setBaudSel_calls (s : State) (n : Nat) :
    (s.setBaudSel n).calls = s.calls := rfl

/-! ## setConsumerValid -/

@[simp] theorem State.setConsumerValid_params (s : State) (v : Bool) :
    (s.setConsumerValid v).params = s.params := rfl
@[simp] theorem State.setConsumerValid_addr (s : State) (v : Bool) :
    (s.setConsumerValid v).addr = s.addr := rfl
@[simp] theorem State.setConsumerValid_dlenSel (s : State) (v : Bool) :
    (s.setConsumerValid v).dlenSel = s.dlenSel := rfl
@[simp] theorem State.setConsumerValid_baudSel (s : State) (v : Bool) :
    (s.setConsumerValid v).baudSel = s.baudSel := rfl
@[simp] theorem State.setConsumerValid_consumerValid (s : State) (v : Bool) :
    (s.setConsumerValid v).consumerValid = v := rfl
@[simp] theorem State.setConsumerValid_fsm (s : State) (v : Bool) :
    (s.setConsumerValid v).fsm = s.fsm := rfl
@[simp] theorem State.setConsumerValid_sessionP (s : State) (v : Bool) :
    (s.setConsumerValid v).sessionP = s.sessionP := rfl
@[simp] theorem State.setConsumerValid_rxcount (s : State) (v : Bool) :
    (s.setConsumerValid v).rxcount = s.rxcount := rfl
@[simp] theorem State.setConsumerValid_txbuf (s : State) (v : Bool) :
    (s.setConsumerValid v).txbuf = s.txbuf := rfl
@[simp] theorem State.setConsumerValid_txlen (s : State) (v : Bool) :
    (s.setConsumerValid v).txlen = s.txlen := rfl
@[simp] theorem State.setConsumerValid_rxbuf (s : State) (v : Bool) :
    (s.setConsumerValid v).rxbuf = s.rxbuf := rfl
@[simp] theorem State.setConsumerValid_rxlen (s : State) (v : Bool) :
    (s.setConsumerValid v).rxlen = s.rxlen := rfl
@[simp] theorem State.setConsumerValid_xbuf (s : State) (v : Bool) :
    (s.setConsumerValid v).xbuf = s.xbuf := rfl
@[simp] theorem State.setConsumerValid_xlen (s : State) (v : Bool) :
    (s.setConsumerValid v).xlen = s.xlen := rfl
@[simp] theorem State.setConsumerValid_out (s : State) (v : Bool) :
    (s.setConsumerValid v).out = s.out := rfl
@[simp] theorem State.setConsumerValid_inq (s : State) (v : Bool) :
    (s.setConsumerValid v).inq = s.inq := rfl
@[simp] theorem State.setConsumerValid_speed (s : State) (v : Bool) :
    (s.setConsumerValid v).speed = s.speed := rfl
@[simp] theorem State.setConsumerValid_env (s : State) (v : Bool) :
    (s.setConsumerValid v).env = s.env := rfl
@[simp] theorem State.setConsumerValid_envIndex (s : State) (v : Bool) :
    (s.setConsumerValid v).envIndex = s.envIndex := rfl
@[simp] theorem State.setConsumerValid_inputs (s : State) (v : Bool) :
    (s.setConsumerValid v).inputs = s.inputs := rfl
@[simp] theorem State.setConsumerValid_result (s : State) (v : Bool) :
    (s.setConsumerValid v).result = s.result := rfl
@[simp] theorem State.setConsumerValid_calls (s : State) (v : Bool) :
    (s.setConsumerValid v).calls = s.calls := rfl

/-! ## setFsm -/

@[simp] theorem State.setFsm_params (s : State) (f : Fsm) : (s.setFsm f).params = s.params := rfl
@[simp] theorem State.setFsm_addr (s : State) (f : Fsm) : (s.setFsm f).addr = s.addr := rfl
@[simp] theorem State.setFsm_dlenSel (s : State) (f : Fsm) : (s.setFsm f).dlenSel = s.dlenSel := rfl
@[simp] theorem State.setFsm_baudSel (s : State) (f : Fsm) : (s.setFsm f).baudSel = s.baudSel := rfl
@[simp] theorem State.setFsm_consumerValid (s : State) (f : Fsm) :
    (s.setFsm f).consumerValid = s.consumerValid := rfl
@[simp] theorem State.setFsm_fsm (s : State) (f : Fsm) : (s.setFsm f).fsm = f := rfl
@[simp] theorem State.setFsm_sessionP (s : State) (f : Fsm) :
    (s.setFsm f).sessionP = s.sessionP := rfl
@[simp] theorem State.setFsm_rxcount (s : State) (f : Fsm) : (s.setFsm f).rxcount = s.rxcount := rfl
@[simp] theorem State.setFsm_txbuf (s : State) (f : Fsm) : (s.setFsm f).txbuf = s.txbuf := rfl
@[simp] theorem State.setFsm_txlen (s : State) (f : Fsm) : (s.setFsm f).txlen = s.txlen := rfl
@[simp] theorem State.setFsm_rxbuf (s : State) (f : Fsm) : (s.setFsm f).rxbuf = s.rxbuf := rfl
@[simp] theorem State.setFsm_rxlen (s : State) (f : Fsm) : (s.setFsm f).rxlen = s.rxlen := rfl
@[simp] theorem State.setFsm_xbuf (s : State) (f : Fsm) : (s.setFsm f).xbuf = s.xbuf := rfl
@[simp] theorem State.setFsm_xlen (s : State) (f : Fsm) : (s.setFsm f).xlen = s.xlen := rfl
@[simp] theorem State.setFsm_out (s : State) (f : Fsm) : (s.setFsm f).out = s.out := rfl
@[simp] theorem State.setFsm_inq (s : State) (f : Fsm) : (s.setFsm f).inq = s.inq := rfl
@[simp] theorem State.setFsm_speed (s : State) (f : Fsm) : (s.setFsm f).speed = s.speed := rfl
@[simp] theorem State.setFsm_env (s : State) (f : Fsm) : (s.setFsm f).env = s.env := rfl
@[simp] theorem State.setFsm_envIndex (s : State) (f : Fsm) :
    (s.setFsm f).envIndex = s.envIndex := rfl
@[simp] theorem State.setFsm_inputs (s : State) (f : Fsm) : (s.setFsm f).inputs = s.inputs := rfl
@[simp] theorem State.setFsm_result (s : State) (f : Fsm) : (s.setFsm f).result = s.result := rfl
@[simp] theorem State.setFsm_calls (s : State) (f : Fsm) : (s.setFsm f).calls = s.calls := rfl

/-! ## openSession -/

@[simp] theorem State.openSession_params (s : State) (P : Nat) :
    (s.openSession P).params = s.params := rfl
@[simp] theorem State.openSession_addr (s : State) (P : Nat) :
    (s.openSession P).addr = s.addr := rfl
@[simp] theorem State.openSession_dlenSel (s : State) (P : Nat) :
    (s.openSession P).dlenSel = s.dlenSel := rfl
@[simp] theorem State.openSession_baudSel (s : State) (P : Nat) :
    (s.openSession P).baudSel = s.baudSel := rfl
@[simp] theorem State.openSession_consumerValid (s : State) (P : Nat) :
    (s.openSession P).consumerValid = s.consumerValid := rfl
@[simp] theorem State.openSession_fsm (s : State) (P : Nat) :
    (s.openSession P).fsm = .awaitingGenerateAck := rfl
@[simp] theorem State.openSession_sessionP (s : State) (P : Nat) :
    (s.openSession P).sessionP = BitVec.ofNat 9 P := rfl
@[simp] theorem State.openSession_rxcount (s : State) (P : Nat) :
    (s.openSession P).rxcount = 0#32 := rfl
@[simp] theorem State.openSession_txbuf (s : State) (P : Nat) :
    (s.openSession P).txbuf = s.txbuf := rfl
@[simp] theorem State.openSession_txlen (s : State) (P : Nat) :
    (s.openSession P).txlen = s.txlen := rfl
@[simp] theorem State.openSession_rxbuf (s : State) (P : Nat) :
    (s.openSession P).rxbuf = s.rxbuf := rfl
@[simp] theorem State.openSession_rxlen (s : State) (P : Nat) :
    (s.openSession P).rxlen = s.rxlen := rfl
@[simp] theorem State.openSession_xbuf (s : State) (P : Nat) :
    (s.openSession P).xbuf = s.xbuf := rfl
@[simp] theorem State.openSession_xlen (s : State) (P : Nat) :
    (s.openSession P).xlen = s.xlen := rfl
@[simp] theorem State.openSession_out (s : State) (P : Nat) : (s.openSession P).out = s.out := rfl
@[simp] theorem State.openSession_inq (s : State) (P : Nat) : (s.openSession P).inq = s.inq := rfl
@[simp] theorem State.openSession_speed (s : State) (P : Nat) :
    (s.openSession P).speed = s.speed := rfl
@[simp] theorem State.openSession_env (s : State) (P : Nat) : (s.openSession P).env = s.env := rfl
@[simp] theorem State.openSession_envIndex (s : State) (P : Nat) :
    (s.openSession P).envIndex = s.envIndex := rfl
@[simp] theorem State.openSession_inputs (s : State) (P : Nat) :
    (s.openSession P).inputs = s.inputs := rfl
@[simp] theorem State.openSession_result (s : State) (P : Nat) :
    (s.openSession P).result = s.result := rfl
@[simp] theorem State.openSession_calls (s : State) (P : Nat) :
    (s.openSession P).calls = s.calls := rfl

/-! ## countFrame -/

@[simp] theorem State.countFrame_params (s : State) : s.countFrame.params = s.params := rfl
@[simp] theorem State.countFrame_addr (s : State) : s.countFrame.addr = s.addr := rfl
@[simp] theorem State.countFrame_dlenSel (s : State) : s.countFrame.dlenSel = s.dlenSel := rfl
@[simp] theorem State.countFrame_baudSel (s : State) : s.countFrame.baudSel = s.baudSel := rfl
@[simp] theorem State.countFrame_consumerValid (s : State) :
    s.countFrame.consumerValid = s.consumerValid := rfl
@[simp] theorem State.countFrame_fsm (s : State) : s.countFrame.fsm = s.fsm := rfl
@[simp] theorem State.countFrame_sessionP (s : State) : s.countFrame.sessionP = s.sessionP := rfl
@[simp] theorem State.countFrame_rxcount (s : State) :
    s.countFrame.rxcount = s.rxcount + s.sessionP.setWidth 32 := rfl
@[simp] theorem State.countFrame_txbuf (s : State) : s.countFrame.txbuf = s.txbuf := rfl
@[simp] theorem State.countFrame_txlen (s : State) : s.countFrame.txlen = s.txlen := rfl
@[simp] theorem State.countFrame_rxbuf (s : State) : s.countFrame.rxbuf = s.rxbuf := rfl
@[simp] theorem State.countFrame_rxlen (s : State) : s.countFrame.rxlen = s.rxlen := rfl
@[simp] theorem State.countFrame_xbuf (s : State) : s.countFrame.xbuf = s.xbuf := rfl
@[simp] theorem State.countFrame_xlen (s : State) : s.countFrame.xlen = s.xlen := rfl
@[simp] theorem State.countFrame_out (s : State) : s.countFrame.out = s.out := rfl
@[simp] theorem State.countFrame_inq (s : State) : s.countFrame.inq = s.inq := rfl
@[simp] theorem State.countFrame_speed (s : State) : s.countFrame.speed = s.speed := rfl
@[simp] theorem State.countFrame_env (s : State) : s.countFrame.env = s.env := rfl
@[simp] theorem State.countFrame_envIndex (s : State) : s.countFrame.envIndex = s.envIndex := rfl
@[simp] theorem State.countFrame_inputs (s : State) : s.countFrame.inputs = s.inputs := rfl
@[simp] theorem State.countFrame_result (s : State) : s.countFrame.result = s.result := rfl
@[simp] theorem State.countFrame_calls (s : State) : s.countFrame.calls = s.calls := rfl

/-! ## fillTx -/

@[simp] theorem State.fillTx_params (s : State) (bs : List Byte) :
    (s.fillTx bs).params = s.params := rfl
@[simp] theorem State.fillTx_addr (s : State) (bs : List Byte) : (s.fillTx bs).addr = s.addr := rfl
@[simp] theorem State.fillTx_dlenSel (s : State) (bs : List Byte) :
    (s.fillTx bs).dlenSel = s.dlenSel := rfl
@[simp] theorem State.fillTx_baudSel (s : State) (bs : List Byte) :
    (s.fillTx bs).baudSel = s.baudSel := rfl
@[simp] theorem State.fillTx_consumerValid (s : State) (bs : List Byte) :
    (s.fillTx bs).consumerValid = s.consumerValid := rfl
@[simp] theorem State.fillTx_fsm (s : State) (bs : List Byte) : (s.fillTx bs).fsm = s.fsm := rfl
@[simp] theorem State.fillTx_sessionP (s : State) (bs : List Byte) :
    (s.fillTx bs).sessionP = s.sessionP := rfl
@[simp] theorem State.fillTx_rxcount (s : State) (bs : List Byte) :
    (s.fillTx bs).rxcount = s.rxcount := rfl
@[simp] theorem State.fillTx_txbuf (s : State) (bs : List Byte) :
    (s.fillTx bs).txbuf = s.txbuf.writeBytes 0 bs := rfl
@[simp] theorem State.fillTx_txlen (s : State) (bs : List Byte) :
    (s.fillTx bs).txlen = bs.length := rfl
@[simp] theorem State.fillTx_rxbuf (s : State) (bs : List Byte) :
    (s.fillTx bs).rxbuf = s.rxbuf := rfl
@[simp] theorem State.fillTx_rxlen (s : State) (bs : List Byte) :
    (s.fillTx bs).rxlen = s.rxlen := rfl
@[simp] theorem State.fillTx_xbuf (s : State) (bs : List Byte) : (s.fillTx bs).xbuf = s.xbuf := rfl
@[simp] theorem State.fillTx_xlen (s : State) (bs : List Byte) : (s.fillTx bs).xlen = s.xlen := rfl
@[simp] theorem State.fillTx_out (s : State) (bs : List Byte) : (s.fillTx bs).out = s.out := rfl
@[simp] theorem State.fillTx_inq (s : State) (bs : List Byte) : (s.fillTx bs).inq = s.inq := rfl
@[simp] theorem State.fillTx_speed (s : State) (bs : List Byte) :
    (s.fillTx bs).speed = s.speed := rfl
@[simp] theorem State.fillTx_env (s : State) (bs : List Byte) : (s.fillTx bs).env = s.env := rfl
@[simp] theorem State.fillTx_envIndex (s : State) (bs : List Byte) :
    (s.fillTx bs).envIndex = s.envIndex := rfl
@[simp] theorem State.fillTx_inputs (s : State) (bs : List Byte) :
    (s.fillTx bs).inputs = s.inputs := rfl
@[simp] theorem State.fillTx_result (s : State) (bs : List Byte) :
    (s.fillTx bs).result = s.result := rfl
@[simp] theorem State.fillTx_calls (s : State) (bs : List Byte) :
    (s.fillTx bs).calls = s.calls := rfl

/-! ## fillRx -/

@[simp] theorem State.fillRx_params (s : State) (bs : List Byte) :
    (s.fillRx bs).params = s.params := rfl
@[simp] theorem State.fillRx_addr (s : State) (bs : List Byte) : (s.fillRx bs).addr = s.addr := rfl
@[simp] theorem State.fillRx_dlenSel (s : State) (bs : List Byte) :
    (s.fillRx bs).dlenSel = s.dlenSel := rfl
@[simp] theorem State.fillRx_baudSel (s : State) (bs : List Byte) :
    (s.fillRx bs).baudSel = s.baudSel := rfl
@[simp] theorem State.fillRx_consumerValid (s : State) (bs : List Byte) :
    (s.fillRx bs).consumerValid = s.consumerValid := rfl
@[simp] theorem State.fillRx_fsm (s : State) (bs : List Byte) : (s.fillRx bs).fsm = s.fsm := rfl
@[simp] theorem State.fillRx_sessionP (s : State) (bs : List Byte) :
    (s.fillRx bs).sessionP = s.sessionP := rfl
@[simp] theorem State.fillRx_rxcount (s : State) (bs : List Byte) :
    (s.fillRx bs).rxcount = s.rxcount := rfl
@[simp] theorem State.fillRx_txbuf (s : State) (bs : List Byte) :
    (s.fillRx bs).txbuf = s.txbuf := rfl
@[simp] theorem State.fillRx_txlen (s : State) (bs : List Byte) :
    (s.fillRx bs).txlen = s.txlen := rfl
@[simp] theorem State.fillRx_rxbuf (s : State) (bs : List Byte) :
    (s.fillRx bs).rxbuf = s.rxbuf.writeBytes 0 bs := rfl
@[simp] theorem State.fillRx_rxlen (s : State) (bs : List Byte) :
    (s.fillRx bs).rxlen = bs.length := rfl
@[simp] theorem State.fillRx_xbuf (s : State) (bs : List Byte) : (s.fillRx bs).xbuf = s.xbuf := rfl
@[simp] theorem State.fillRx_xlen (s : State) (bs : List Byte) : (s.fillRx bs).xlen = s.xlen := rfl
@[simp] theorem State.fillRx_out (s : State) (bs : List Byte) : (s.fillRx bs).out = s.out := rfl
@[simp] theorem State.fillRx_inq (s : State) (bs : List Byte) : (s.fillRx bs).inq = s.inq := rfl
@[simp] theorem State.fillRx_speed (s : State) (bs : List Byte) :
    (s.fillRx bs).speed = s.speed := rfl
@[simp] theorem State.fillRx_env (s : State) (bs : List Byte) : (s.fillRx bs).env = s.env := rfl
@[simp] theorem State.fillRx_envIndex (s : State) (bs : List Byte) :
    (s.fillRx bs).envIndex = s.envIndex := rfl
@[simp] theorem State.fillRx_inputs (s : State) (bs : List Byte) :
    (s.fillRx bs).inputs = s.inputs := rfl
@[simp] theorem State.fillRx_result (s : State) (bs : List Byte) :
    (s.fillRx bs).result = s.result := rfl
@[simp] theorem State.fillRx_calls (s : State) (bs : List Byte) :
    (s.fillRx bs).calls = s.calls := rfl

/-! ## overfillRx -/

@[simp] theorem State.overfillRx_params (s : State) (bs : List Byte) :
    (s.overfillRx bs).params = s.params := rfl
@[simp] theorem State.overfillRx_addr (s : State) (bs : List Byte) :
    (s.overfillRx bs).addr = s.addr := rfl
@[simp] theorem State.overfillRx_dlenSel (s : State) (bs : List Byte) :
    (s.overfillRx bs).dlenSel = s.dlenSel := rfl
@[simp] theorem State.overfillRx_baudSel (s : State) (bs : List Byte) :
    (s.overfillRx bs).baudSel = s.baudSel := rfl
@[simp] theorem State.overfillRx_consumerValid (s : State) (bs : List Byte) :
    (s.overfillRx bs).consumerValid = s.consumerValid := rfl
@[simp] theorem State.overfillRx_fsm (s : State) (bs : List Byte) :
    (s.overfillRx bs).fsm = s.fsm := rfl
@[simp] theorem State.overfillRx_sessionP (s : State) (bs : List Byte) :
    (s.overfillRx bs).sessionP = s.sessionP := rfl
@[simp] theorem State.overfillRx_rxcount (s : State) (bs : List Byte) :
    (s.overfillRx bs).rxcount = s.rxcount := rfl
@[simp] theorem State.overfillRx_txbuf (s : State) (bs : List Byte) :
    (s.overfillRx bs).txbuf = s.txbuf := rfl
@[simp] theorem State.overfillRx_txlen (s : State) (bs : List Byte) :
    (s.overfillRx bs).txlen = s.txlen := rfl
@[simp] theorem State.overfillRx_rxbuf (s : State) (bs : List Byte) :
    (s.overfillRx bs).rxbuf = s.rxbuf.writeBytes 0 (bs.take rxCapacity) := rfl
@[simp] theorem State.overfillRx_rxlen (s : State) (bs : List Byte) :
    (s.overfillRx bs).rxlen = min (Config.freeRxlen s.envIndex) rxCapacity := rfl
@[simp] theorem State.overfillRx_xbuf (s : State) (bs : List Byte) :
    (s.overfillRx bs).xbuf = s.xbuf := rfl
@[simp] theorem State.overfillRx_xlen (s : State) (bs : List Byte) :
    (s.overfillRx bs).xlen = s.xlen := rfl
@[simp] theorem State.overfillRx_out (s : State) (bs : List Byte) :
    (s.overfillRx bs).out = s.out := rfl
@[simp] theorem State.overfillRx_inq (s : State) (bs : List Byte) :
    (s.overfillRx bs).inq = s.inq := rfl
@[simp] theorem State.overfillRx_speed (s : State) (bs : List Byte) :
    (s.overfillRx bs).speed = s.speed := rfl
@[simp] theorem State.overfillRx_env (s : State) (bs : List Byte) :
    (s.overfillRx bs).env = s.env := rfl
@[simp] theorem State.overfillRx_envIndex (s : State) (bs : List Byte) :
    (s.overfillRx bs).envIndex = s.envIndex := rfl
@[simp] theorem State.overfillRx_inputs (s : State) (bs : List Byte) :
    (s.overfillRx bs).inputs = s.inputs := rfl
@[simp] theorem State.overfillRx_result (s : State) (bs : List Byte) :
    (s.overfillRx bs).result = s.result := rfl
@[simp] theorem State.overfillRx_calls (s : State) (bs : List Byte) :
    (s.overfillRx bs).calls = s.calls := rfl

/-! ## fillX -/

@[simp] theorem State.fillX_params (s : State) (bs : List Byte) :
    (s.fillX bs).params = s.params := rfl
@[simp] theorem State.fillX_addr (s : State) (bs : List Byte) : (s.fillX bs).addr = s.addr := rfl
@[simp] theorem State.fillX_dlenSel (s : State) (bs : List Byte) :
    (s.fillX bs).dlenSel = s.dlenSel := rfl
@[simp] theorem State.fillX_baudSel (s : State) (bs : List Byte) :
    (s.fillX bs).baudSel = s.baudSel := rfl
@[simp] theorem State.fillX_consumerValid (s : State) (bs : List Byte) :
    (s.fillX bs).consumerValid = s.consumerValid := rfl
@[simp] theorem State.fillX_fsm (s : State) (bs : List Byte) : (s.fillX bs).fsm = s.fsm := rfl
@[simp] theorem State.fillX_sessionP (s : State) (bs : List Byte) :
    (s.fillX bs).sessionP = s.sessionP := rfl
@[simp] theorem State.fillX_rxcount (s : State) (bs : List Byte) :
    (s.fillX bs).rxcount = s.rxcount := rfl
@[simp] theorem State.fillX_txbuf (s : State) (bs : List Byte) : (s.fillX bs).txbuf = s.txbuf := rfl
@[simp] theorem State.fillX_txlen (s : State) (bs : List Byte) : (s.fillX bs).txlen = s.txlen := rfl
@[simp] theorem State.fillX_rxbuf (s : State) (bs : List Byte) : (s.fillX bs).rxbuf = s.rxbuf := rfl
@[simp] theorem State.fillX_rxlen (s : State) (bs : List Byte) : (s.fillX bs).rxlen = s.rxlen := rfl
@[simp] theorem State.fillX_xbuf (s : State) (bs : List Byte) :
    (s.fillX bs).xbuf = s.xbuf.writeBytes 0 bs := rfl
@[simp] theorem State.fillX_xlen (s : State) (bs : List Byte) : (s.fillX bs).xlen = bs.length := rfl
@[simp] theorem State.fillX_out (s : State) (bs : List Byte) : (s.fillX bs).out = s.out := rfl
@[simp] theorem State.fillX_inq (s : State) (bs : List Byte) : (s.fillX bs).inq = s.inq := rfl
@[simp] theorem State.fillX_speed (s : State) (bs : List Byte) : (s.fillX bs).speed = s.speed := rfl
@[simp] theorem State.fillX_env (s : State) (bs : List Byte) : (s.fillX bs).env = s.env := rfl
@[simp] theorem State.fillX_envIndex (s : State) (bs : List Byte) :
    (s.fillX bs).envIndex = s.envIndex := rfl
@[simp] theorem State.fillX_inputs (s : State) (bs : List Byte) :
    (s.fillX bs).inputs = s.inputs := rfl
@[simp] theorem State.fillX_result (s : State) (bs : List Byte) :
    (s.fillX bs).result = s.result := rfl
@[simp] theorem State.fillX_calls (s : State) (bs : List Byte) : (s.fillX bs).calls = s.calls := rfl

/-! ## appendOut -/

@[simp] theorem State.appendOut_params (s : State) (bs : List Byte) :
    (s.appendOut bs).params = s.params := rfl
@[simp] theorem State.appendOut_addr (s : State) (bs : List Byte) :
    (s.appendOut bs).addr = s.addr := rfl
@[simp] theorem State.appendOut_dlenSel (s : State) (bs : List Byte) :
    (s.appendOut bs).dlenSel = s.dlenSel := rfl
@[simp] theorem State.appendOut_baudSel (s : State) (bs : List Byte) :
    (s.appendOut bs).baudSel = s.baudSel := rfl
@[simp] theorem State.appendOut_consumerValid (s : State) (bs : List Byte) :
    (s.appendOut bs).consumerValid = s.consumerValid := rfl
@[simp] theorem State.appendOut_fsm (s : State) (bs : List Byte) :
    (s.appendOut bs).fsm = s.fsm := rfl
@[simp] theorem State.appendOut_sessionP (s : State) (bs : List Byte) :
    (s.appendOut bs).sessionP = s.sessionP := rfl
@[simp] theorem State.appendOut_rxcount (s : State) (bs : List Byte) :
    (s.appendOut bs).rxcount = s.rxcount := rfl
@[simp] theorem State.appendOut_txbuf (s : State) (bs : List Byte) :
    (s.appendOut bs).txbuf = s.txbuf := rfl
@[simp] theorem State.appendOut_txlen (s : State) (bs : List Byte) :
    (s.appendOut bs).txlen = s.txlen := rfl
@[simp] theorem State.appendOut_rxbuf (s : State) (bs : List Byte) :
    (s.appendOut bs).rxbuf = s.rxbuf := rfl
@[simp] theorem State.appendOut_rxlen (s : State) (bs : List Byte) :
    (s.appendOut bs).rxlen = s.rxlen := rfl
@[simp] theorem State.appendOut_xbuf (s : State) (bs : List Byte) :
    (s.appendOut bs).xbuf = s.xbuf := rfl
@[simp] theorem State.appendOut_xlen (s : State) (bs : List Byte) :
    (s.appendOut bs).xlen = s.xlen := rfl
@[simp] theorem State.appendOut_out (s : State) (bs : List Byte) :
    (s.appendOut bs).out = s.out ++ bs := rfl
@[simp] theorem State.appendOut_inq (s : State) (bs : List Byte) :
    (s.appendOut bs).inq = s.inq := rfl
@[simp] theorem State.appendOut_speed (s : State) (bs : List Byte) :
    (s.appendOut bs).speed = s.speed := rfl
@[simp] theorem State.appendOut_env (s : State) (bs : List Byte) :
    (s.appendOut bs).env = s.env := rfl
@[simp] theorem State.appendOut_envIndex (s : State) (bs : List Byte) :
    (s.appendOut bs).envIndex = s.envIndex := rfl
@[simp] theorem State.appendOut_inputs (s : State) (bs : List Byte) :
    (s.appendOut bs).inputs = s.inputs := rfl
@[simp] theorem State.appendOut_result (s : State) (bs : List Byte) :
    (s.appendOut bs).result = s.result := rfl
@[simp] theorem State.appendOut_calls (s : State) (bs : List Byte) :
    (s.appendOut bs).calls = s.calls := rfl

/-! ## setIn -/

@[simp] theorem State.setIn_params (s : State) (bs : List Byte) :
    (s.setIn bs).params = s.params := rfl
@[simp] theorem State.setIn_addr (s : State) (bs : List Byte) : (s.setIn bs).addr = s.addr := rfl
@[simp] theorem State.setIn_dlenSel (s : State) (bs : List Byte) :
    (s.setIn bs).dlenSel = s.dlenSel := rfl
@[simp] theorem State.setIn_baudSel (s : State) (bs : List Byte) :
    (s.setIn bs).baudSel = s.baudSel := rfl
@[simp] theorem State.setIn_consumerValid (s : State) (bs : List Byte) :
    (s.setIn bs).consumerValid = s.consumerValid := rfl
@[simp] theorem State.setIn_fsm (s : State) (bs : List Byte) : (s.setIn bs).fsm = s.fsm := rfl
@[simp] theorem State.setIn_sessionP (s : State) (bs : List Byte) :
    (s.setIn bs).sessionP = s.sessionP := rfl
@[simp] theorem State.setIn_rxcount (s : State) (bs : List Byte) :
    (s.setIn bs).rxcount = s.rxcount := rfl
@[simp] theorem State.setIn_txbuf (s : State) (bs : List Byte) : (s.setIn bs).txbuf = s.txbuf := rfl
@[simp] theorem State.setIn_txlen (s : State) (bs : List Byte) : (s.setIn bs).txlen = s.txlen := rfl
@[simp] theorem State.setIn_rxbuf (s : State) (bs : List Byte) : (s.setIn bs).rxbuf = s.rxbuf := rfl
@[simp] theorem State.setIn_rxlen (s : State) (bs : List Byte) : (s.setIn bs).rxlen = s.rxlen := rfl
@[simp] theorem State.setIn_xbuf (s : State) (bs : List Byte) : (s.setIn bs).xbuf = s.xbuf := rfl
@[simp] theorem State.setIn_xlen (s : State) (bs : List Byte) : (s.setIn bs).xlen = s.xlen := rfl
@[simp] theorem State.setIn_out (s : State) (bs : List Byte) : (s.setIn bs).out = s.out := rfl
@[simp] theorem State.setIn_inq (s : State) (bs : List Byte) : (s.setIn bs).inq = bs := rfl
@[simp] theorem State.setIn_speed (s : State) (bs : List Byte) : (s.setIn bs).speed = s.speed := rfl
@[simp] theorem State.setIn_env (s : State) (bs : List Byte) : (s.setIn bs).env = s.env := rfl
@[simp] theorem State.setIn_envIndex (s : State) (bs : List Byte) :
    (s.setIn bs).envIndex = s.envIndex := rfl
@[simp] theorem State.setIn_inputs (s : State) (bs : List Byte) :
    (s.setIn bs).inputs = s.inputs := rfl
@[simp] theorem State.setIn_result (s : State) (bs : List Byte) :
    (s.setIn bs).result = s.result := rfl
@[simp] theorem State.setIn_calls (s : State) (bs : List Byte) : (s.setIn bs).calls = s.calls := rfl

/-! ## setSpeed -/

@[simp] theorem State.setSpeed_params (s : State) (v : LineSpeed) :
    (s.setSpeed v).params = s.params := rfl
@[simp] theorem State.setSpeed_addr (s : State) (v : LineSpeed) :
    (s.setSpeed v).addr = s.addr := rfl
@[simp] theorem State.setSpeed_dlenSel (s : State) (v : LineSpeed) :
    (s.setSpeed v).dlenSel = s.dlenSel := rfl
@[simp] theorem State.setSpeed_baudSel (s : State) (v : LineSpeed) :
    (s.setSpeed v).baudSel = s.baudSel := rfl
@[simp] theorem State.setSpeed_consumerValid (s : State) (v : LineSpeed) :
    (s.setSpeed v).consumerValid = s.consumerValid := rfl
@[simp] theorem State.setSpeed_fsm (s : State) (v : LineSpeed) : (s.setSpeed v).fsm = s.fsm := rfl
@[simp] theorem State.setSpeed_sessionP (s : State) (v : LineSpeed) :
    (s.setSpeed v).sessionP = s.sessionP := rfl
@[simp] theorem State.setSpeed_rxcount (s : State) (v : LineSpeed) :
    (s.setSpeed v).rxcount = s.rxcount := rfl
@[simp] theorem State.setSpeed_txbuf (s : State) (v : LineSpeed) :
    (s.setSpeed v).txbuf = s.txbuf := rfl
@[simp] theorem State.setSpeed_txlen (s : State) (v : LineSpeed) :
    (s.setSpeed v).txlen = s.txlen := rfl
@[simp] theorem State.setSpeed_rxbuf (s : State) (v : LineSpeed) :
    (s.setSpeed v).rxbuf = s.rxbuf := rfl
@[simp] theorem State.setSpeed_rxlen (s : State) (v : LineSpeed) :
    (s.setSpeed v).rxlen = s.rxlen := rfl
@[simp] theorem State.setSpeed_xbuf (s : State) (v : LineSpeed) :
    (s.setSpeed v).xbuf = s.xbuf := rfl
@[simp] theorem State.setSpeed_xlen (s : State) (v : LineSpeed) :
    (s.setSpeed v).xlen = s.xlen := rfl
@[simp] theorem State.setSpeed_out (s : State) (v : LineSpeed) : (s.setSpeed v).out = s.out := rfl
@[simp] theorem State.setSpeed_inq (s : State) (v : LineSpeed) : (s.setSpeed v).inq = s.inq := rfl
@[simp] theorem State.setSpeed_speed (s : State) (v : LineSpeed) : (s.setSpeed v).speed = v := rfl
@[simp] theorem State.setSpeed_env (s : State) (v : LineSpeed) : (s.setSpeed v).env = s.env := rfl
@[simp] theorem State.setSpeed_envIndex (s : State) (v : LineSpeed) :
    (s.setSpeed v).envIndex = s.envIndex := rfl
@[simp] theorem State.setSpeed_inputs (s : State) (v : LineSpeed) :
    (s.setSpeed v).inputs = s.inputs := rfl
@[simp] theorem State.setSpeed_result (s : State) (v : LineSpeed) :
    (s.setSpeed v).result = s.result := rfl
@[simp] theorem State.setSpeed_calls (s : State) (v : LineSpeed) :
    (s.setSpeed v).calls = s.calls := rfl

/-! ## record -/

@[simp] theorem State.record_params (s : State) (c : Call) : (s.record c).params = s.params := rfl
@[simp] theorem State.record_addr (s : State) (c : Call) : (s.record c).addr = s.addr := rfl
@[simp] theorem State.record_dlenSel (s : State) (c : Call) :
    (s.record c).dlenSel = s.dlenSel := rfl
@[simp] theorem State.record_baudSel (s : State) (c : Call) :
    (s.record c).baudSel = s.baudSel := rfl
@[simp] theorem State.record_consumerValid (s : State) (c : Call) :
    (s.record c).consumerValid = s.consumerValid := rfl
@[simp] theorem State.record_fsm (s : State) (c : Call) : (s.record c).fsm = s.fsm := rfl
@[simp] theorem State.record_sessionP (s : State) (c : Call) :
    (s.record c).sessionP = s.sessionP := rfl
@[simp] theorem State.record_rxcount (s : State) (c : Call) :
    (s.record c).rxcount = s.rxcount := rfl
@[simp] theorem State.record_txbuf (s : State) (c : Call) : (s.record c).txbuf = s.txbuf := rfl
@[simp] theorem State.record_txlen (s : State) (c : Call) : (s.record c).txlen = s.txlen := rfl
@[simp] theorem State.record_rxbuf (s : State) (c : Call) : (s.record c).rxbuf = s.rxbuf := rfl
@[simp] theorem State.record_rxlen (s : State) (c : Call) : (s.record c).rxlen = s.rxlen := rfl
@[simp] theorem State.record_xbuf (s : State) (c : Call) : (s.record c).xbuf = s.xbuf := rfl
@[simp] theorem State.record_xlen (s : State) (c : Call) : (s.record c).xlen = s.xlen := rfl
@[simp] theorem State.record_out (s : State) (c : Call) : (s.record c).out = s.out := rfl
@[simp] theorem State.record_inq (s : State) (c : Call) : (s.record c).inq = s.inq := rfl
@[simp] theorem State.record_speed (s : State) (c : Call) : (s.record c).speed = s.speed := rfl
@[simp] theorem State.record_env (s : State) (c : Call) : (s.record c).env = s.env := rfl
@[simp] theorem State.record_envIndex (s : State) (c : Call) :
    (s.record c).envIndex = s.envIndex := rfl
@[simp] theorem State.record_inputs (s : State) (c : Call) : (s.record c).inputs = s.inputs := rfl
@[simp] theorem State.record_result (s : State) (c : Call) : (s.record c).result = s.result := rfl
@[simp] theorem State.record_calls (s : State) (c : Call) :
    (s.record c).calls = s.calls ++ [c] := rfl

/-! ## setResult -/

@[simp] theorem State.setResult_params (s : State) (r : Option OpResult) :
    (s.setResult r).params = s.params := rfl
@[simp] theorem State.setResult_addr (s : State) (r : Option OpResult) :
    (s.setResult r).addr = s.addr := rfl
@[simp] theorem State.setResult_dlenSel (s : State) (r : Option OpResult) :
    (s.setResult r).dlenSel = s.dlenSel := rfl
@[simp] theorem State.setResult_baudSel (s : State) (r : Option OpResult) :
    (s.setResult r).baudSel = s.baudSel := rfl
@[simp] theorem State.setResult_consumerValid (s : State) (r : Option OpResult) :
    (s.setResult r).consumerValid = s.consumerValid := rfl
@[simp] theorem State.setResult_fsm (s : State) (r : Option OpResult) :
    (s.setResult r).fsm = s.fsm := rfl
@[simp] theorem State.setResult_sessionP (s : State) (r : Option OpResult) :
    (s.setResult r).sessionP = s.sessionP := rfl
@[simp] theorem State.setResult_rxcount (s : State) (r : Option OpResult) :
    (s.setResult r).rxcount = s.rxcount := rfl
@[simp] theorem State.setResult_txbuf (s : State) (r : Option OpResult) :
    (s.setResult r).txbuf = s.txbuf := rfl
@[simp] theorem State.setResult_txlen (s : State) (r : Option OpResult) :
    (s.setResult r).txlen = s.txlen := rfl
@[simp] theorem State.setResult_rxbuf (s : State) (r : Option OpResult) :
    (s.setResult r).rxbuf = s.rxbuf := rfl
@[simp] theorem State.setResult_rxlen (s : State) (r : Option OpResult) :
    (s.setResult r).rxlen = s.rxlen := rfl
@[simp] theorem State.setResult_xbuf (s : State) (r : Option OpResult) :
    (s.setResult r).xbuf = s.xbuf := rfl
@[simp] theorem State.setResult_xlen (s : State) (r : Option OpResult) :
    (s.setResult r).xlen = s.xlen := rfl
@[simp] theorem State.setResult_out (s : State) (r : Option OpResult) :
    (s.setResult r).out = s.out := rfl
@[simp] theorem State.setResult_inq (s : State) (r : Option OpResult) :
    (s.setResult r).inq = s.inq := rfl
@[simp] theorem State.setResult_speed (s : State) (r : Option OpResult) :
    (s.setResult r).speed = s.speed := rfl
@[simp] theorem State.setResult_env (s : State) (r : Option OpResult) :
    (s.setResult r).env = s.env := rfl
@[simp] theorem State.setResult_envIndex (s : State) (r : Option OpResult) :
    (s.setResult r).envIndex = s.envIndex := rfl
@[simp] theorem State.setResult_inputs (s : State) (r : Option OpResult) :
    (s.setResult r).inputs = s.inputs := rfl
@[simp] theorem State.setResult_result (s : State) (r : Option OpResult) :
    (s.setResult r).result = r := rfl
@[simp] theorem State.setResult_calls (s : State) (r : Option OpResult) :
    (s.setResult r).calls = s.calls := rfl

/-! ## setInputs -/

@[simp] theorem State.setInputs_params (s : State) (is : List Input) :
    (s.setInputs is).params = s.params := rfl
@[simp] theorem State.setInputs_addr (s : State) (is : List Input) :
    (s.setInputs is).addr = s.addr := rfl
@[simp] theorem State.setInputs_dlenSel (s : State) (is : List Input) :
    (s.setInputs is).dlenSel = s.dlenSel := rfl
@[simp] theorem State.setInputs_baudSel (s : State) (is : List Input) :
    (s.setInputs is).baudSel = s.baudSel := rfl
@[simp] theorem State.setInputs_consumerValid (s : State) (is : List Input) :
    (s.setInputs is).consumerValid = s.consumerValid := rfl
@[simp] theorem State.setInputs_fsm (s : State) (is : List Input) :
    (s.setInputs is).fsm = s.fsm := rfl
@[simp] theorem State.setInputs_sessionP (s : State) (is : List Input) :
    (s.setInputs is).sessionP = s.sessionP := rfl
@[simp] theorem State.setInputs_rxcount (s : State) (is : List Input) :
    (s.setInputs is).rxcount = s.rxcount := rfl
@[simp] theorem State.setInputs_txbuf (s : State) (is : List Input) :
    (s.setInputs is).txbuf = s.txbuf := rfl
@[simp] theorem State.setInputs_txlen (s : State) (is : List Input) :
    (s.setInputs is).txlen = s.txlen := rfl
@[simp] theorem State.setInputs_rxbuf (s : State) (is : List Input) :
    (s.setInputs is).rxbuf = s.rxbuf := rfl
@[simp] theorem State.setInputs_rxlen (s : State) (is : List Input) :
    (s.setInputs is).rxlen = s.rxlen := rfl
@[simp] theorem State.setInputs_xbuf (s : State) (is : List Input) :
    (s.setInputs is).xbuf = s.xbuf := rfl
@[simp] theorem State.setInputs_xlen (s : State) (is : List Input) :
    (s.setInputs is).xlen = s.xlen := rfl
@[simp] theorem State.setInputs_out (s : State) (is : List Input) :
    (s.setInputs is).out = s.out := rfl
@[simp] theorem State.setInputs_inq (s : State) (is : List Input) :
    (s.setInputs is).inq = s.inq := rfl
@[simp] theorem State.setInputs_speed (s : State) (is : List Input) :
    (s.setInputs is).speed = s.speed := rfl
@[simp] theorem State.setInputs_env (s : State) (is : List Input) :
    (s.setInputs is).env = s.env := rfl
@[simp] theorem State.setInputs_envIndex (s : State) (is : List Input) :
    (s.setInputs is).envIndex = s.envIndex := rfl
@[simp] theorem State.setInputs_inputs (s : State) (is : List Input) :
    (s.setInputs is).inputs = is := rfl
@[simp] theorem State.setInputs_result (s : State) (is : List Input) :
    (s.setInputs is).result = s.result := rfl
@[simp] theorem State.setInputs_calls (s : State) (is : List Input) :
    (s.setInputs is).calls = s.calls := rfl

/-! ## beginCall -/

@[simp] theorem State.beginCall_params (s : State) : s.beginCall.params = s.params := rfl
@[simp] theorem State.beginCall_addr (s : State) : s.beginCall.addr = s.addr := rfl
@[simp] theorem State.beginCall_dlenSel (s : State) : s.beginCall.dlenSel = s.dlenSel := rfl
@[simp] theorem State.beginCall_baudSel (s : State) : s.beginCall.baudSel = s.baudSel := rfl
@[simp] theorem State.beginCall_consumerValid (s : State) :
    s.beginCall.consumerValid = s.consumerValid := rfl
@[simp] theorem State.beginCall_fsm (s : State) : s.beginCall.fsm = s.fsm := rfl
@[simp] theorem State.beginCall_sessionP (s : State) : s.beginCall.sessionP = s.sessionP := rfl
@[simp] theorem State.beginCall_rxcount (s : State) : s.beginCall.rxcount = s.rxcount := rfl
@[simp] theorem State.beginCall_txbuf (s : State) : s.beginCall.txbuf = s.txbuf := rfl
@[simp] theorem State.beginCall_txlen (s : State) : s.beginCall.txlen = s.txlen := rfl
@[simp] theorem State.beginCall_rxbuf (s : State) : s.beginCall.rxbuf = s.rxbuf := rfl
@[simp] theorem State.beginCall_rxlen (s : State) : s.beginCall.rxlen = s.rxlen := rfl
@[simp] theorem State.beginCall_xbuf (s : State) : s.beginCall.xbuf = s.xbuf := rfl
@[simp] theorem State.beginCall_xlen (s : State) : s.beginCall.xlen = s.xlen := rfl
@[simp] theorem State.beginCall_out (s : State) : s.beginCall.out = s.out := rfl
@[simp] theorem State.beginCall_inq (s : State) : s.beginCall.inq = s.inq ++ s.choice.arrived := rfl
@[simp] theorem State.beginCall_speed (s : State) : s.beginCall.speed = s.speed := rfl
@[simp] theorem State.beginCall_env (s : State) : s.beginCall.env = s.env.drop 1 := rfl
@[simp] theorem State.beginCall_envIndex (s : State) : s.beginCall.envIndex = s.envIndex + 1 := rfl
@[simp] theorem State.beginCall_inputs (s : State) : s.beginCall.inputs = s.inputs := rfl
@[simp] theorem State.beginCall_result (s : State) : s.beginCall.result = s.result := rfl
@[simp] theorem State.beginCall_calls (s : State) : s.beginCall.calls = s.calls := rfl

/-! ## resetEvent -/

@[simp] theorem State.resetEvent_params (s : State) : s.resetEvent.params = s.params := rfl
@[simp] theorem State.resetEvent_addr (s : State) : s.resetEvent.addr = s.params.addrDefault := rfl
@[simp] theorem State.resetEvent_dlenSel (s : State) :
    s.resetEvent.dlenSel = s.params.dlenReset := rfl
@[simp] theorem State.resetEvent_baudSel (s : State) :
    s.resetEvent.baudSel = s.params.baudReset := rfl
@[simp] theorem State.resetEvent_consumerValid (s : State) :
    s.resetEvent.consumerValid = false := rfl
@[simp] theorem State.resetEvent_fsm (s : State) : s.resetEvent.fsm = .idle := rfl
@[simp] theorem State.resetEvent_sessionP (s : State) : s.resetEvent.sessionP = 0#9 := rfl
@[simp] theorem State.resetEvent_rxcount (s : State) : s.resetEvent.rxcount = 0#32 := rfl
@[simp] theorem State.resetEvent_txbuf (s : State) : s.resetEvent.txbuf = [] := rfl
@[simp] theorem State.resetEvent_txlen (s : State) : s.resetEvent.txlen = 0 := rfl
@[simp] theorem State.resetEvent_rxbuf (s : State) : s.resetEvent.rxbuf = [] := rfl
@[simp] theorem State.resetEvent_rxlen (s : State) : s.resetEvent.rxlen = 0 := rfl
@[simp] theorem State.resetEvent_xbuf (s : State) : s.resetEvent.xbuf = [] := rfl
@[simp] theorem State.resetEvent_xlen (s : State) : s.resetEvent.xlen = 0 := rfl
@[simp] theorem State.resetEvent_out (s : State) : s.resetEvent.out = [] := rfl
@[simp] theorem State.resetEvent_inq (s : State) : s.resetEvent.inq = s.inq := rfl
@[simp] theorem State.resetEvent_speed (s : State) : s.resetEvent.speed = s.speed := rfl
@[simp] theorem State.resetEvent_env (s : State) : s.resetEvent.env = s.env := rfl
@[simp] theorem State.resetEvent_envIndex (s : State) : s.resetEvent.envIndex = s.envIndex := rfl
@[simp] theorem State.resetEvent_inputs (s : State) : s.resetEvent.inputs = s.inputs := rfl
@[simp] theorem State.resetEvent_result (s : State) : s.resetEvent.result = none := rfl
@[simp] theorem State.resetEvent_calls (s : State) : s.resetEvent.calls = s.calls := rfl

/-! ## flushed -/

@[simp] theorem State.flushed_params (s : State) : s.flushed.params = s.params := rfl
@[simp] theorem State.flushed_addr (s : State) : s.flushed.addr = s.addr := rfl
@[simp] theorem State.flushed_dlenSel (s : State) : s.flushed.dlenSel = s.dlenSel := rfl
@[simp] theorem State.flushed_baudSel (s : State) : s.flushed.baudSel = s.baudSel := rfl
@[simp] theorem State.flushed_consumerValid (s : State) :
    s.flushed.consumerValid = s.consumerValid := rfl
@[simp] theorem State.flushed_fsm (s : State) : s.flushed.fsm = s.fsm := rfl
@[simp] theorem State.flushed_sessionP (s : State) : s.flushed.sessionP = s.sessionP := rfl
@[simp] theorem State.flushed_rxcount (s : State) : s.flushed.rxcount = s.rxcount := rfl
@[simp] theorem State.flushed_txbuf (s : State) : s.flushed.txbuf = s.txbuf := rfl
@[simp] theorem State.flushed_txlen (s : State) : s.flushed.txlen = s.txlen := rfl
@[simp] theorem State.flushed_rxbuf (s : State) : s.flushed.rxbuf = s.rxbuf := rfl
@[simp] theorem State.flushed_rxlen (s : State) : s.flushed.rxlen = s.rxlen := rfl
@[simp] theorem State.flushed_xbuf (s : State) : s.flushed.xbuf = s.xbuf := rfl
@[simp] theorem State.flushed_xlen (s : State) : s.flushed.xlen = s.xlen := rfl
@[simp] theorem State.flushed_out (s : State) : s.flushed.out = s.out := rfl
@[simp] theorem State.flushed_inq (s : State) : s.flushed.inq = [] := rfl
@[simp] theorem State.flushed_speed (s : State) : s.flushed.speed = s.speed := rfl
@[simp] theorem State.flushed_env (s : State) : s.flushed.env = s.env.drop 1 := rfl
@[simp] theorem State.flushed_envIndex (s : State) : s.flushed.envIndex = s.envIndex + 1 := rfl
@[simp] theorem State.flushed_inputs (s : State) : s.flushed.inputs = s.inputs := rfl
@[simp] theorem State.flushed_result (s : State) : s.flushed.result = s.result := rfl
@[simp] theorem State.flushed_calls (s : State) : s.flushed.calls = s.calls ++ [.flush] := rfl

end Sys2Proof.Machine
end

