-- ==== Sys2Proof/Laws/Memory.lean ====
section
/-! SUPPORT. The laws of the buffers: read after write, what a write leaves alone, and that every write
keeps the canonical form. -/

namespace Sys2Proof.Machine

@[simp] theorem Memory.read_nil (a : Nat) : Memory.read [] a = none := rfl

theorem Memory.read_write (m : Memory) (a i : Nat) (v : Byte) :
    (m.write a v).read i = if i = a then some v else m.read i := by
  induction m with
  | nil => simp only [write, read, eq_comm]
  | cons c m ih =>
    obtain ⟨b, w⟩ := c
    unfold write
    split
    · simp only [read, eq_comm]
    · split
      · rename_i hab
        subst hab
        simp only [read, eq_comm (a := i)]
        split <;> rfl
      · simp only [read, ih]
        split
        · rename_i hbi
          rw [if_neg (by omega)]
        · rfl

@[simp] theorem Memory.writeBytes_nil (m : Memory) (a : Nat) : m.writeBytes a [] = m := rfl

/-- A byte of the written range reads as the byte written; every other index reads as before. -/
theorem Memory.read_writeBytes (m : Memory) (a i : Nat) (bs : List Byte) :
    (m.writeBytes a bs).read i =
      if a ≤ i ∧ i < a + bs.length then bs[i - a]? else m.read i := by
  induction bs generalizing m a with
  | nil => rw [if_neg (by simp)]; rfl
  | cons v vs ih =>
    rw [writeBytes, ih, read_write]
    simp only [List.length_cons]
    by_cases hi : i = a
    · subst hi
      rw [if_neg (by omega), if_pos rfl, if_pos (by omega)]
      simp
    · rw [if_neg hi]
      by_cases hr : a + 1 ≤ i ∧ i < a + 1 + vs.length
      · rw [if_pos hr, if_pos (by omega)]
        have : i - a = (i - (a + 1)) + 1 := by omega
        rw [this, List.getElem?_cons_succ]
      · rw [if_neg hr, if_neg (by omega)]

theorem Memory.readBytes_eq_some (m : Memory) (a : Nat) (bs : List Byte)
    (h : ∀ i, i < bs.length → m.read (a + i) = bs[i]?) : m.readBytes a bs.length = some bs := by
  induction bs generalizing a with
  | nil => rfl
  | cons v vs ih =>
    have h0 : m.read a = some v := by simpa using h 0 (by simp)
    have hs : m.readBytes (a + 1) vs.length = some vs := by
      apply ih
      intro i hi
      have := h (i + 1) (by simpa using hi)
      rw [show a + (i + 1) = a + 1 + i by omega] at this
      simpa using this
    simp only [List.length_cons, readBytes, h0, hs]

/-- What was just written is what is read: no `MemRead` of a buffer just filled faults (R35). -/
@[simp] theorem Memory.readBytes_writeBytes (m : Memory) (a : Nat) (bs : List Byte) :
    (m.writeBytes a bs).readBytes a bs.length = some bs := by
  apply readBytes_eq_some
  intro i hi
  rw [read_writeBytes, if_pos (by omega)]
  congr 1
  omega

/-! ## The canonical form -/

theorem Memory.wf_cons (a : Nat) (v : Byte) (m : Memory) :
    Memory.wf ((a, v) :: m) = true ↔ (∀ c ∈ m.head?, a < c.1) ∧ m.wf = true := by
  cases m with
  | nil => simp [wf]
  | cons c m => simp [wf]

theorem Memory.head_write (m : Memory) (a : Nat) (v : Byte) (k : Nat)
    (hk : k < a) (h : ∀ c ∈ m.head?, k < c.1) : ∀ c ∈ (m.write a v).head?, k < c.1 := by
  cases m with
  | nil => simp [write, hk]
  | cons c m =>
    obtain ⟨b, w⟩ := c
    unfold write
    split
    · simp [hk]
    · split
      · simp [hk]
      · simpa using h

theorem Memory.wf_write (m : Memory) (a : Nat) (v : Byte) (h : m.wf = true) :
    (m.write a v).wf = true := by
  induction m with
  | nil => rfl
  | cons c m ih =>
    obtain ⟨b, w⟩ := c
    have hm := (wf_cons b w m).1 h
    unfold write
    split
    · rename_i hab
      exact (wf_cons _ _ _).2 ⟨by simpa using hab, h⟩
    · split
      · rename_i hab
        subst hab
        exact (wf_cons _ _ _).2 hm
      · exact (wf_cons _ _ _).2
          ⟨head_write m a v b (by omega) hm.1, ih hm.2⟩

/-- Every memory operation keeps the canonical form. -/
theorem Memory.wf_writeBytes (m : Memory) (a : Nat) (bs : List Byte) (h : m.wf = true) :
    (m.writeBytes a bs).wf = true := by
  induction bs generalizing m a with
  | nil => exact h
  | cons v vs ih => exact ih _ _ (wf_write m a v h)

end Sys2Proof.Machine
end

