-- ==== Sys2Proof/Laws/Ops.lean ====
section
/-! SUPPORT. What each shared operation can do, said once: the environment's choices, the transport
primitives, ENCODE, SEND_FRAME, RECV_FRAME, the expander, and taking an error. In these forms no
`MemRead` fault is left (spec/10_state.md R35). -/

namespace Sys2Proof.Machine

/-! ## Running -/

@[simp] theorem Res.andThen_ok {α β : Type} (a : α) (s : State) (k : α → State → Res β) :
    (Res.ok a s).andThen k = k a s := rfl
@[simp] theorem Res.andThen_raise {α β : Type} (e : ErrorKind) (s : State) (k : α → State → Res β) :
    (Res.raise e s).andThen k = .raise e s := rfl
@[simp] theorem Res.andThen_reset {α β : Type} (s : State) (k : α → State → Res β) :
    (Res.reset s).andThen k = .reset s := rfl
@[simp] theorem Res.andThen_fault {α β : Type} (f : Fault) (k : α → State → Res β) :
    (Res.fault f).andThen k = .fault f := rfl
@[simp] theorem Res.andThen_refused {α β : Type} (x : Refusal) (k : α → State → Res β) :
    (Res.refused x).andThen k = .refused x := rfl

theorem Res.andThen_assoc {α β γ : Type} (r : Res α) (k : α → State → Res β)
    (l : β → State → Res γ) :
    (r.andThen k).andThen l = r.andThen fun a s => (k a s).andThen l := by
  cases r <;> rfl

@[simp] theorem finishRun_some (v : OpValue) (s : State) :
    finishRun (.ok (some v) s) = .next (s.setResult (some (.ok v))) := rfl
@[simp] theorem finishRun_none (s : State) :
    finishRun (.ok none s) = .next (s.setResult none) := rfl
@[simp] theorem finishRun_raise (e : ErrorKind) (s : State) :
    finishRun (.raise e s) = .next (takeError e s) := rfl
@[simp] theorem finishRun_reset (s : State) : finishRun (.reset s) = .next s.resetEvent := rfl
@[simp] theorem finishRun_fault (f : Fault) : finishRun (.fault f) = .fault f := rfl
@[simp] theorem finishRun_refused (x : Refusal) : finishRun (.refused x) = .refused x := rfl

@[simp] theorem finish_ok (v : OpValue) (s : State) :
    finish (.ok v s) = .next (s.setResult (some (.ok v))) := rfl
@[simp] theorem finish_raise (e : ErrorKind) (s : State) :
    finish (.raise e s) = .next (takeError e s) := rfl
@[simp] theorem finish_reset (s : State) : finish (.reset s) = .next s.resetEvent := rfl
@[simp] theorem finish_fault (f : Fault) : finish (.fault f) = .fault f := rfl
@[simp] theorem finish_refused (x : Refusal) : finish (.refused x) = .refused x := rfl

@[simp] theorem whenIdle_idle (s : State) (r : Host.Outcome State Fault Refusal)
    (h : s.fsm = .idle) : whenIdle s r = r := if_pos h

@[simp] theorem whenIdle_busy (s : State) (r : Host.Outcome State Fault Refusal)
    (h : s.fsm ≠ .idle) : whenIdle s r = .refused .busy := if_neg h

/-! ## The environment's choices -/

theorem State.choiceAt_congr (s t : State) (k : Nat) (he : s.env = t.env)
    (hi : s.envIndex = t.envIndex) : s.choiceAt k = t.choiceAt k := by
  unfold choiceAt
  rw [he, hi]

@[simp] theorem State.choiceAt_beginCall (s : State) (k : Nat) :
    s.beginCall.choiceAt k = s.choiceAt (k + 1) := by
  have h : (s.env.drop 1)[k]? = s.env[k + 1]? := by
    rw [List.getElem?_drop, Nat.add_comm]
  unfold choiceAt
  simp only [beginCall_env, beginCall_envIndex, h]
  rw [show s.envIndex + 1 + k = s.envIndex + (k + 1) by omega]

@[simp] theorem State.choiceAt_setAddr (s : State) (a : Bytes4) (k : Nat) :
    (s.setAddr a).choiceAt k = s.choiceAt k := rfl
@[simp] theorem State.choiceAt_setDlenSel (s : State) (n k : Nat) :
    (s.setDlenSel n).choiceAt k = s.choiceAt k := rfl
@[simp] theorem State.choiceAt_setBaudSel (s : State) (n k : Nat) :
    (s.setBaudSel n).choiceAt k = s.choiceAt k := rfl
@[simp] theorem State.choiceAt_setFsm (s : State) (f : Fsm) (k : Nat) :
    (s.setFsm f).choiceAt k = s.choiceAt k := rfl
@[simp] theorem State.choiceAt_openSession (s : State) (P k : Nat) :
    (s.openSession P).choiceAt k = s.choiceAt k := rfl
@[simp] theorem State.choiceAt_countFrame (s : State) (k : Nat) :
    s.countFrame.choiceAt k = s.choiceAt k := rfl
@[simp] theorem State.choiceAt_fillTx (s : State) (bs : List Byte) (k : Nat) :
    (s.fillTx bs).choiceAt k = s.choiceAt k := rfl
@[simp] theorem State.choiceAt_fillRx (s : State) (bs : List Byte) (k : Nat) :
    (s.fillRx bs).choiceAt k = s.choiceAt k := rfl
@[simp] theorem State.choiceAt_fillX (s : State) (bs : List Byte) (k : Nat) :
    (s.fillX bs).choiceAt k = s.choiceAt k := rfl
@[simp] theorem State.choiceAt_appendOut (s : State) (bs : List Byte) (k : Nat) :
    (s.appendOut bs).choiceAt k = s.choiceAt k := rfl
@[simp] theorem State.choiceAt_setIn (s : State) (bs : List Byte) (k : Nat) :
    (s.setIn bs).choiceAt k = s.choiceAt k := rfl
@[simp] theorem State.choiceAt_record (s : State) (c : Call) (k : Nat) :
    (s.record c).choiceAt k = s.choiceAt k := rfl
@[simp] theorem State.choiceAt_setResult (s : State) (r : Option OpResult) (k : Nat) :
    (s.setResult r).choiceAt k = s.choiceAt k := rfl
@[simp] theorem State.choiceAt_setInputs (s : State) (is : List Input) (k : Nat) :
    (s.setInputs is).choiceAt k = s.choiceAt k := rfl
@[simp] theorem State.choiceAt_setSpeed (s : State) (v : LineSpeed) (k : Nat) :
    (s.setSpeed v).choiceAt k = s.choiceAt k := rfl
@[simp] theorem State.choiceAt_setConsumerValid (s : State) (v : Bool) (k : Nat) :
    (s.setConsumerValid v).choiceAt k = s.choiceAt k := rfl
@[simp] theorem State.choiceAt_flushed (s : State) (k : Nat) :
    s.flushed.choiceAt k = s.choiceAt (k + 1) := State.choiceAt_beginCall s k

/-- After `n` calls the choices are the later ones. -/
theorem State.choiceAt_later (s t : State) (n k : Nat) (he : t.env = s.env.drop n)
    (hi : t.envIndex = s.envIndex + n) : t.choiceAt k = s.choiceAt (k + n) := by
  have h : (s.env.drop n)[k]? = s.env[k + n]? := by rw [List.getElem?_drop, Nat.add_comm]
  unfold choiceAt
  rw [he, hi, h, show s.envIndex + n + k = s.envIndex + (k + n) by omega]

@[simp] theorem State.choiceAt_afterExchange (s : State) (fr an : List Byte) (t k : Nat) :
    (s.afterExchange fr an t).choiceAt k = s.choiceAt (k + 2) := s.choiceAt_later _ 2 k rfl rfl
@[simp] theorem State.choiceAt_afterRead (s : State) (an : List Byte) (t k : Nat) :
    (s.afterRead an t).choiceAt k = s.choiceAt (k + 1) := s.choiceAt_later _ 1 k rfl rfl
@[simp] theorem State.choiceAt_afterTransfer (s : State) (fr raw : List Byte) (k : Nat) :
    (s.afterTransfer fr raw).choiceAt k = s.choiceAt (k + 2) := s.choiceAt_later _ 2 k rfl rfl

/-- No reset within `n + 1` calls is none within `n`. -/
theorem State.noReset_of_succ {s : State} {n : Nat} (h : s.noReset (n + 1) = true) :
    s.noReset n = true := by
  simp only [noReset, List.range_succ, List.all_append, Bool.and_eq_true] at h ⊢
  exact h.1

theorem State.choice_eq (s : State) : s.choice = s.choiceAt 0 := rfl

theorem EnvChoice.passes_iff (c : EnvChoice) (n : Nat) :
    c.passes n = true ↔ c.reset = false ∧ c.error = false ∧ n ≤ c.count := by
  simp [Sys2Proof.EnvChoice.passes, and_assoc]

/-! ## The transport primitives -/

/-- Everything `T.write` can do (R150, R52): some prefix goes out, and it ends in one of three ways. -/
theorem tWrite_cases (bs : List Byte) (s : State) :
    ∃ n, n ≤ bs.length ∧
      let s1 := (s.beginCall.appendOut (bs.take n)).record (.write bs n s.choice.error)
      tWrite bs s = .reset s1 ∨ tWrite bs s = .ok .error s1 ∨ tWrite bs s = .ok (.count n) s1 := by
  refine ⟨min s.choice.count bs.length, Nat.min_le_right _ _, ?_⟩
  unfold tWrite
  simp only
  split
  · exact .inl rfl
  · split
    · exact .inr (.inl rfl)
    · exact .inr (.inr rfl)

/-- A write that is let through whole. -/
theorem tWrite_passes (bs : List Byte) (s : State) (h : s.choice.passes bs.length = true) :
    tWrite bs s = .ok (.count bs.length)
      ((s.beginCall.appendOut bs).record (.write bs bs.length false)) := by
  obtain ⟨hr, he, hc⟩ := (EnvChoice.passes_iff _ _).1 h
  unfold tWrite
  simp [hr, he, Nat.min_eq_right hc]

/-- Everything `T.read` can do (R151, R53): at most `n` bytes leave the front of `IN`, and it ends in one
of three ways. -/
theorem tRead_cases (n t : Nat) (s : State) :
    ∃ k, k ≤ n ∧
      let r := s.beginCall.inq.take k
      let s1 := (s.beginCall.setIn (s.beginCall.inq.drop k)).record (.read n t r s.choice.error)
      tRead n t s = .reset s1 ∨ tRead n t s = .ok .error s1 ∨ tRead n t s = .ok (.bytes r) s1 := by
  refine ⟨min s.choice.count n, Nat.min_le_right _ _, ?_⟩
  unfold tRead
  simp only
  split
  · exact .inl rfl
  · split
    · exact .inr (.inl rfl)
    · exact .inr (.inr rfl)

/-- A read that brings what it asks for. -/
theorem tRead_brings (answer : List Byte) (t : Nat) (s : State) (h : s.brings 0 answer = true) :
    tRead answer.length t s = .ok (.bytes answer)
      ((s.beginCall.setIn ((s.inAt 0).drop answer.length)).record
        (.read answer.length t answer false)) := by
  simp only [State.brings, Bool.and_eq_true, beq_iff_eq] at h
  obtain ⟨hp, hf⟩ := h
  obtain ⟨hr, he, hc⟩ := (EnvChoice.passes_iff _ _).1 hp
  have hin : s.beginCall.inq = s.inAt 0 := rfl
  unfold tRead
  simp only [State.choice_eq, hr, he, Nat.min_eq_right hc, hin, hf]
  rfl

/-- A baud selector stands for its own speed (R153). -/
theorem State.speedFor_legal (s : State) {m : Nat} (h : legalBaud m = true) :
    s.speedFor m = .ofSelector m := if_pos h

/-- The transport follows, or it does not (R153). -/
theorem tReconfigure_done (m : Nat) (s : State) (hr : (s.choiceAt 0).reset = false)
    (he : (s.choiceAt 0).error = false) :
    tReconfigure m s =
      .ok true ((s.beginCall.setSpeed (s.speedFor m)).record (.reconfigure m false)) := by
  unfold tReconfigure
  simp only [State.choice_eq, hr, he]
  rfl

theorem tReconfigure_error (m : Nat) (s : State) (hr : (s.choiceAt 0).reset = false)
    (he : (s.choiceAt 0).error = true) :
    tReconfigure m s =
      .ok false ((s.beginCall.setSpeed .unknown).record (.reconfigure m true)) := by
  unfold tReconfigure
  simp only [State.choice_eq, hr, he]
  rfl

/-! ## ENCODE and SEND_FRAME -/

/-- ENCODE: total on a payload that fits, refused on any other (R122, R123). -/
theorem encodeTx_fits (kind : Kind) (payload : List Byte) (addr : Bytes4) (s : State)
    (h : s.fits payload) :
    encodeTx kind payload addr s =
      .ok (encodeFrame s.params kind payload addr)
        (s.fillTx (encodeFrame s.params kind payload addr)) := by
  unfold encodeTx
  rw [if_pos h]
  simp only [State.fillTx_txbuf, State.fillTx_txlen, Memory.readBytes_writeBytes]

theorem encodeTx_too_long (kind : Kind) (payload : List Byte) (addr : Bytes4) (s : State)
    (h : ¬ s.fits payload) : encodeTx kind payload addr s = .refused .payloadTooLong := if_neg h

/-- SEND_FRAME without its `MemRead`: the encoded frame goes to the transport in one call (R60, R155). -/
theorem sendTo_fits (kind : Kind) (payload : List Byte) (addr : Bytes4) (s : State)
    (h : s.fits payload) :
    sendTo kind payload addr s =
      let frame := encodeFrame s.params kind payload addr
      (tWrite frame (s.fillTx frame)).andThen fun r s =>
        match r with
        | .error => .raise .writeFailure s
        | .count c => if c < s.txlen then .raise .partialWrite s else .ok () s := by
  unfold sendTo
  rw [encodeTx_fits kind payload addr s h]
  simp only [Res.andThen_ok, State.fillTx_txbuf, State.fillTx_txlen, Memory.readBytes_writeBytes] <;>
    rfl

/-- A frame that goes out whole (R155). -/
theorem sendTo_passes (kind : Kind) (payload : List Byte) (addr : Bytes4) (s : State)
    (h : s.fits payload) (hw : (s.choiceAt 0).passes (payload.length + 11) = true) :
    sendTo kind payload addr s =
      let frame := encodeFrame s.params kind payload addr
      .ok () (((s.fillTx frame).beginCall.appendOut frame).record
        (.write frame frame.length false)) := by
  rw [sendTo_fits kind payload addr s h]
  simp only
  rw [tWrite_passes _ _ (by simpa [State.choice_eq] using hw)]
  simp

/-! ## RECV_FRAME -/

/-- RECV_FRAME without its `MemRead` (R156). -/
theorem recvFrame_eq (accept : List Kind) (expected t : Nat) (s : State)
    (h : 2 ≤ expected ∧ expected ≤ 258) :
    recvFrame accept expected t s =
      (tRead (headerSize + expected) t s).andThen fun r s =>
        match r with
        | .error => .raise .readFailure s
        | .bytes b =>
            if b.length = 0 then .raise .notFound s
            else if b.length < headerSize + expected then .raise .shortRead s
            else acceptFrame b accept expected (s.fillRx b) := by
  unfold recvFrame
  simp only [if_pos h, State.fillRx_rxbuf, State.fillRx_rxlen, Memory.readBytes_writeBytes] <;>
    rfl

/-- RECV_FRAME for an expected length outside 2 to 258 (log entry 23). -/
theorem recvFrame_unsized (accept : List Kind) (expected t : Nat) (s : State)
    (h : ¬ ReceivableLength expected) :
    recvFrame accept expected t s =
      (tRead (headerSize + expected) t s).andThen fun r s =>
        match r with
        | .error => .raise .readFailure s
        | .bytes b =>
            if b.length = 0 then .raise .notFound s
            else if b.length < headerSize + expected then .raise .shortRead s
            else acceptUnsized b accept expected s := by
  unfold recvFrame
  simp only [if_neg h] <;>
    rfl

/-- The state an undisturbed read leaves, as the named updates it is made of. -/
theorem State.afterRead_eq (s : State) (answer : List Byte) (t : Nat) :
    ((s.beginCall.setIn ((s.inAt 0).drop answer.length)).record
      (.read answer.length t answer false)).fillRx answer = s.afterRead answer t := rfl

/-- An encoded frame of an accepted kind, from `ADDR` and of the expected length, is accepted (R146, R156). -/
theorem acceptFrame_encodeFrame (kind : Kind) (payload : List Byte) (accept : List Kind) (s : State)
    (hp : s.params.ok = true) (hk : kind ∈ accept) (hl : payload.length ≤ maxLength16) :
    acceptFrame (encodeFrame s.params kind payload s.addr) accept (payload.length + 2) s =
      .ok (kind, payload) s := by
  have hs : splitFrame (encodeFrame s.params kind payload s.addr) = _ := splitFrame_joinFrame _
  have hlen := lengthField_toNat payload.length hl
  have hkk := kindOf_kindByte s.params hp kind
  have hv : validateHeader s.params s.addr (encodeFrame s.params kind payload s.addr) accept
      (payload.length + 2) = none := by
    simp [validateHeader, startMatches, addressMatches, kindAccepted, lengthMatches, encodeFrame,
      joinFrame_eq, byteAt, hkk, hk, hlen]
  have hb : byteAt (encodeFrame s.params kind payload s.addr) 6 = kindByte s.params kind :=
    congrArg FrameFields.kbyte hs
  unfold acceptFrame judgeFrame
  rw [verifyChecksum_encodeFrame, if_pos rfl, hv]
  simp only [hs, hb, hkk]

/-- A read that brings as many bytes as RECV_FRAME asks for leaves the checks to do (R156). -/
theorem recvFrame_read (answer : List Byte) (accept : List Kind) (expected t : Nat) (s : State)
    (he : 2 ≤ expected ∧ expected ≤ 258) (hn : answer.length = headerSize + expected)
    (h : s.brings 0 answer = true) :
    recvFrame accept expected t s = acceptFrame answer accept expected (s.afterRead answer t) := by
  rw [recvFrame_eq accept expected t s he, ← hn, tRead_brings answer t s h]
  simp only [Res.andThen_ok, Nat.lt_irrefl, if_false]
  rw [if_neg (by unfold headerSize at hn; omega), State.afterRead_eq]

/-- A good frame is received (R156). -/
theorem recvFrame_brings (kind : Kind) (payload : List Byte) (accept : List Kind) (t : Nat)
    (s : State) (hp : s.params.ok = true) (hk : kind ∈ accept) (hl : payload.length ≤ 256)
    (h : s.brings 0 (encodeFrame s.params kind payload s.addr) = true) :
    recvFrame accept (payload.length + 2) t s =
      .ok (kind, payload) (s.afterRead (encodeFrame s.params kind payload s.addr) t) := by
  rw [recvFrame_read _ accept _ t s (by omega) (by simp [headerSize]; omega) h]
  have ha := acceptFrame_encodeFrame kind payload accept
    (s.afterRead (encodeFrame s.params kind payload s.addr) t) hp hk
    (by unfold maxLength16; omega)
  rwa [State.afterRead_params, State.afterRead_addr] at ha

/-! ## The expander -/

/-- EXPAND: total on at most 256 bytes (R212). -/
theorem expandX_fits (raw : List Byte) (s : State) (h : raw.length ≤ 256) :
    expandX raw s = .ok (expandBytes raw) (s.fillX (expandBytes raw)) := by
  unfold expandX
  rw [if_pos h]
  simp only [State.fillX_xbuf, State.fillX_xlen, Memory.readBytes_writeBytes]

/-! ## Taking an error -/

/-- Everything the abort action can do (R262): no flush; a flush; or a flush a reset lands in. -/
theorem takeError_cases (e : ErrorKind) (s : State) :
    (flushes s.params e = false ∧
      takeError e s = (s.setFsm .idle).setResult (some (.err e))) ∨
    (flushes s.params e = true ∧ s.choice.reset = false ∧
      takeError e s = (s.flushed.setFsm .idle).setResult (some (.err e))) ∨
    (flushes s.params e = true ∧ s.choice.reset = true ∧
      takeError e s = s.flushed.resetEvent) := by
  unfold takeError
  cases hf : flushes s.params e with
  | false => exact .inl ⟨rfl, rfl⟩
  | true =>
    cases hr : s.choice.reset with
    | false => exact .inr (.inl ⟨rfl, rfl, rfl⟩)
    | true => exact .inr (.inr ⟨rfl, rfl, rfl⟩)

/-- Whatever the error, the block is in `Idle` afterwards (R222, R262). -/
@[simp] theorem takeError_fsm (e : ErrorKind) (s : State) : (takeError e s).fsm = .idle := by
  obtain ⟨-, h⟩ | ⟨-, -, h⟩ | ⟨-, -, h⟩ := takeError_cases e s <;> rw [h] <;> rfl

/-- An error leaves every register but `FSM`, the buffers and `OUT` alone, where no reset lands in the
flush (R261, R262). -/
theorem takeError_keeps (e : ErrorKind) (s : State) (h : (s.choiceAt 0).reset = false) :
    (takeError e s).result = some (.err e) ∧ (takeError e s).params = s.params ∧
    (takeError e s).addr = s.addr ∧ (takeError e s).dlenSel = s.dlenSel ∧
    (takeError e s).baudSel = s.baudSel ∧ (takeError e s).consumerValid = s.consumerValid ∧
    (takeError e s).sessionP = s.sessionP ∧ (takeError e s).rxcount = s.rxcount ∧
    (takeError e s).txbuf = s.txbuf ∧ (takeError e s).txlen = s.txlen ∧
    (takeError e s).rxbuf = s.rxbuf ∧ (takeError e s).rxlen = s.rxlen ∧
    (takeError e s).xbuf = s.xbuf ∧ (takeError e s).xlen = s.xlen ∧
    (takeError e s).out = s.out ∧ (takeError e s).speed = s.speed := by
  obtain ⟨-, h'⟩ | ⟨-, -, h'⟩ | ⟨-, hr, -⟩ := takeError_cases e s
  · simp [h']
  · simp [h']
  · rw [State.choice_eq, h] at hr
    cases hr

/-- An operand rejected in `Idle` changes nothing but the result (R180). -/
theorem takeError_invalidParameter (s : State) (h : s.fsm = .idle) :
    takeError .invalidParameter s = s.setResult (some (.err .invalidParameter)) := by
  rw [show takeError .invalidParameter s =
    (s.setFsm .idle).setResult (some (.err .invalidParameter)) from rfl, ← h]
  rfl

/-! ## EXCHANGE -/

/-- The state after a frame went out whole. -/
def State.sent (s : State) (frame : List Byte) : State :=
  ((s.fillTx frame).beginCall.appendOut frame).record (.write frame frame.length false)

@[simp] theorem State.sent_params (s : State) (frame : List Byte) :
    (s.sent frame).params = s.params := rfl
@[simp] theorem State.sent_addr (s : State) (frame : List Byte) :
    (s.sent frame).addr = s.addr := rfl
@[simp] theorem State.choiceAt_sent (s : State) (frame : List Byte) (k : Nat) :
    (s.sent frame).choiceAt k = s.choiceAt (k + 1) := State.choiceAt_beginCall _ k

theorem State.inAt_sent (s : State) (frame : List Byte) : (s.sent frame).inAt 0 = s.inAt 1 := by
  rw [inAt, choiceAt_sent]
  rfl

/-- One write and one read make the state after an exchange. -/
theorem State.afterRead_sent (s : State) (frame answer : List Byte) (t : Nat) :
    (s.sent frame).afterRead answer t = s.afterExchange frame answer t := by
  have henv : (s.env.drop 1).drop 1 = s.env.drop 2 := List.drop_drop ..
  have hcalls : (s.calls ++ [Call.write frame frame.length false]) ++
      [Call.read answer.length t answer false] =
      s.calls ++ [.write frame frame.length false, .read answer.length t answer false] :=
    List.append_assoc ..
  unfold afterRead afterExchange
  rw [inAt_sent]
  unfold sent
  simp only [record_env, appendOut_env, beginCall_env, fillTx_env, henv, record_calls,
    appendOut_calls, beginCall_calls, fillTx_calls, hcalls]
  rfl

/-- After a command that goes out whole, an exchange is its answer's reception (R157). -/
theorem exchangeTo_sent (addr : Bytes4) (op : CmdOp) (payload : List Byte) (s : State)
    (hf : s.fits payload) (hw : (s.choiceAt 0).passes (payload.length + 11) = true) :
    exchangeTo addr op payload s =
      (recvFrame acceptAck (ackLen s.params op + 2) (Config.timeout op)
        (s.sent (encodeFrame s.params .command payload addr))).andThen fun answer s =>
          match answer.2 with
          | status :: fields => .ok (status, fields) s
          | [] => .ok (Config.freeAckByte s.envIndex 0, []) s := by
  unfold exchangeTo
  rw [sendTo_passes .command payload addr s hf hw]
  rfl

/-- The bounds of a legal binding (R9, R157). -/
theorem params_ok_bounds {p : Params} (h : p.ok = true) :
    p.maxPayload ≤ 65533 ∧ legalBaud p.baudReset.toNat = true ∧ 3 ≤ p.ackTemplateNum ∧
    ∀ op, 1 ≤ ackLen p op ∧ ackLen p op ≤ 256 := by
  simp only [Params.ok, legalAckLen, Bool.and_eq_true, decide_eq_true_eq] at h
  refine ⟨by omega, h.1.1.1.1.1.1.2, by omega, fun op => ?_⟩
  cases op <;> simp only [ackLen] <;> omega

/-- An exchange that goes well: the command out, the acknowledgement in, and the status byte apart
from the other fields (R157). -/
theorem exchangeTo_answered (addr : Bytes4) (op : CmdOp) (payload : List Byte) (status : Byte)
    (fields : List Byte) (s : State) (hp : s.params.ok = true) (hf : s.fits payload)
    (hn : (status :: fields).length = ackLen s.params op) (h256 : fields.length < 256)
    (h : s.answered (payload.length + 11) (s.ackFrame (status :: fields)) = true) :
    exchangeTo addr op payload s =
      .ok (status, fields)
        (s.afterExchange (encodeFrame s.params .command payload addr)
          (s.ackFrame (status :: fields)) (Config.timeout op)) := by
  simp only [State.answered, Bool.and_eq_true] at h
  obtain ⟨hw, hb⟩ := h
  rw [exchangeTo_sent addr op payload s hf hw, ← hn]
  generalize encodeFrame s.params .command payload addr = frame
  have hb' : (s.sent frame).brings 0
      (encodeFrame (s.sent frame).params .acknowledge (status :: fields) (s.sent frame).addr)
        = true := by
    rw [State.brings, State.inAt_sent, State.choiceAt_sent, State.sent_params, State.sent_addr]
    exact hb
  rw [recvFrame_brings .acknowledge (status :: fields) acceptAck (Config.timeout op)
    (s.sent frame) hp (List.mem_singleton.2 rfl) h256 hb']
  rw [State.sent_params, State.sent_addr, State.afterRead_sent]
  rfl

/-! ## The upload -/

@[simp] theorem State.consumerRegistered_eq (s : State) :
    s.consumerRegistered = s.consumerValid := rfl

/-- A good transfer frame of the running session: received, expanded, counted, delivered (R225). -/
theorem streamFrame_transfer (k : Kind) (raw : List Byte) (s : State) (hp : s.params.ok = true)
    (hl : raw.length = s.sessionP.toNat) (h256 : raw.length ≤ 256) (hk : k ∈ acceptTransfer)
    (hb : s.brings 0 (encodeFrame s.params k raw s.addr) = true)
    (hr : (s.choiceAt 1).reset = false) :
    streamFrame s =
      let t := s.afterTransfer (encodeFrame s.params k raw s.addr) raw
      if k = .endOfData then .ok (some (.status s.params.stSuccess)) (t.setFsm .idle)
      else .ok none t := by
  have hrecv := recvFrame_brings k raw acceptTransfer Config.timeoutStream s hp hk h256 hb
  unfold streamFrame
  rw [← hl, show raw.length + checksumSize = raw.length + 2 from rfl, hrecv]
  generalize encodeFrame s.params k raw s.addr = fr at *
  rw [Res.andThen_ok, expandX_fits raw _ h256]
  have hx : ∀ u : State, ((u.fillX (expandBytes raw)).countFrame).xbuf.readBytes 0
      ((u.fillX (expandBytes raw)).countFrame).xlen = some (expandBytes raw) := fun u => by
    rw [State.countFrame_xbuf, State.countFrame_xlen, State.fillX_xbuf, State.fillX_xlen]
    exact Memory.readBytes_writeBytes ..
  have hafter : ((s.afterRead fr Config.timeoutStream).fillX
      (expandBytes raw)).countFrame.beginCall.record (.deliver (expandBytes raw)) =
      s.afterTransfer fr raw := by
    have henv : (s.env.drop 1).drop 1 = s.env.drop 2 := List.drop_drop ..
    have hcalls : (s.calls ++ [Call.read fr.length Config.timeoutStream fr false]) ++
        [.deliver (expandBytes raw)] = s.calls ++ [.read fr.length Config.timeoutStream fr false,
          .deliver (expandBytes raw)] := List.append_assoc ..
    unfold State.afterTransfer
    rw [← henv, ← hcalls, ← expandBytes_length,
      ← (s.choiceAt_afterRead fr Config.timeoutStream 0 : _ = s.choiceAt 1)]
    simp only [State.record, State.beginCall, State.countFrame, State.fillX, State.afterRead]
    rfl
  simp only [Res.andThen_ok, hx, deliver, State.choice_eq, State.choiceAt_countFrame,
    State.choiceAt_fillX, State.choiceAt_afterRead, hr, hafter, Bool.false_eq_true, if_false]
  cases k with
  | command => simp [acceptTransfer] at hk
  | acknowledge => simp [acceptTransfer] at hk
  | data => rfl
  | endOfData => rfl

end Sys2Proof.Machine
end

