-- ==== Sys2Proof/Laws/Effect.lean ====
section
/-! SUPPORT. What an operation can do at most, whatever the environment does: `Effect` says which parts of
the state an operation with I/O may touch, `Res.ends` says how it can end. One lemma per shared
operation; invariants and frames are read off from these. -/

namespace Sys2Proof.Machine

/-! ## How an operation can end -/

/-- The operation ends with `Ok` as `ok` says, with an error as `err` says or abandoned by a reset as `rst`
says, or refuses, which it does only under `ref`; it never ends in a fault. -/
def Res.ends {α : Type} (r : Res α) (ok : α → State → Prop) (err : ErrorKind → State → Prop)
    (rst : State → Prop) (ref : Prop) : Prop :=
  match r with
  | .ok a s => ok a s
  | .raise e s => err e s
  | .reset s => rst s
  | .fault _ => False
  | .refused _ => ref

/-- Two parts one after another end as they do one by one. -/
theorem Res.ends_andThen {α β : Type} {r : Res α} {k : α → State → Res β}
    {ok : α → State → Prop} {ok' : β → State → Prop} {err : ErrorKind → State → Prop}
    {rst : State → Prop} {ref : Prop} (h : r.ends ok err rst ref)
    (hk : ∀ a s, ok a s → (k a s).ends ok' err rst ref) : (r.andThen k).ends ok' err rst ref := by
  cases r with
  | ok a s => exact hk a s h
  | raise e s => exact h
  | reset s => exact h
  | fault f => exact h
  | refused x => exact h

theorem Res.ends_mono {α : Type} {r : Res α} {ok ok' : α → State → Prop}
    {err err' : ErrorKind → State → Prop} {rst rst' : State → Prop} {ref ref' : Prop}
    (h : r.ends ok err rst ref) (h1 : ∀ a s, ok a s → ok' a s) (h2 : ∀ e s, err e s → err' e s)
    (h3 : ∀ s, rst s → rst' s) (h4 : ref → ref') : r.ends ok' err' rst' ref' := by
  cases r with
  | ok a s => exact h1 a s h
  | raise e s => exact h2 e s h
  | reset s => exact h3 s h
  | fault f => exact h
  | refused x => exact h4 h

/-- What a meaning answers, read off from how its operation can end: never a fault. -/
theorem finishRun_ends {r : Res (Option OpValue)} {ok : Option OpValue → State → Prop}
    {err : ErrorKind → State → Prop} {rst : State → Prop} {ref : Prop}
    (h : r.ends ok err rst ref) :
    (∃ v s, ok v s ∧ finishRun r = .next (s.setResult (v.map .ok))) ∨
    (∃ e s, err e s ∧ finishRun r = .next (takeError e s)) ∨
    (∃ s, rst s ∧ finishRun r = .next s.resetEvent) ∨
    (ref ∧ ∃ q, finishRun r = .refused q) := by
  cases r with
  | ok v s => cases v <;> exact .inl ⟨_, s, h, rfl⟩
  | raise e s => exact .inr (.inl ⟨e, s, h, rfl⟩)
  | reset s => exact .inr (.inr (.inl ⟨s, h, rfl⟩))
  | fault f => exact h.elim
  | refused q => exact .inr (.inr (.inr ⟨h, q, rfl⟩))

theorem finish_ends {r : Res OpValue} {ok : OpValue → State → Prop}
    {err : ErrorKind → State → Prop} {rst : State → Prop} {ref : Prop}
    (h : r.ends ok err rst ref) :
    (∃ v s, ok v s ∧ finish r = .next (s.setResult (some (.ok v)))) ∨
    (∃ e s, err e s ∧ finish r = .next (takeError e s)) ∨
    (∃ s, rst s ∧ finish r = .next s.resetEvent) ∨
    (ref ∧ ∃ q, finish r = .refused q) := by
  cases r with
  | ok v s => exact .inl ⟨_, s, h, rfl⟩
  | raise e s => exact .inr (.inl ⟨e, s, h, rfl⟩)
  | reset s => exact .inr (.inr (.inl ⟨s, h, rfl⟩))
  | fault f => exact h.elim
  | refused q => exact .inr (.inr (.inr ⟨h, q, rfl⟩))

/-! ## What it may touch -/

/-- A buffer is as it was, or its first bytes were written anew, `cap` at most, and its length lies among
them. -/
def Refilled (m m' : Memory) (n n' cap : Nat) : Prop :=
  (m' = m ∧ n' = n) ∨
    ∃ bs : List Byte, bs.length ≤ cap ∧ m' = m.writeBytes 0 bs ∧ n' ≤ bs.length

theorem Refilled.refl (m : Memory) (n cap : Nat) : Refilled m m n n cap := .inl ⟨rfl, rfl⟩

/-- `t` comes from `s` by up to `calls` outward calls, an encoding into `TXBUF` of up to `tx` bytes and a
reception into `RXBUF` of up to `rx` bytes: no register, no `XBUF` and no delivery is touched, and `OUT`
grows by up to `tx` bytes. -/
structure Effect (s t : State) (calls tx rx : Nat) : Prop where
  params : t.params = s.params
  addr : t.addr = s.addr
  dlenSel : t.dlenSel = s.dlenSel
  baudSel : t.baudSel = s.baudSel
  consumerValid : t.consumerValid = s.consumerValid
  fsm : t.fsm = s.fsm
  sessionP : t.sessionP = s.sessionP
  rxcount : t.rxcount = s.rxcount
  xbuf : t.xbuf = s.xbuf
  xlen : t.xlen = s.xlen
  speed : t.speed = s.speed
  inputs : t.inputs = s.inputs
  out : ∃ bs : List Byte, bs.length ≤ tx ∧ t.out = s.out ++ bs
  delivered : deliveriesOf t.calls = deliveriesOf s.calls
  txbuf : Refilled s.txbuf t.txbuf s.txlen t.txlen tx
  rxbuf : Refilled s.rxbuf t.rxbuf s.rxlen t.rxlen rx
  choices : ∃ k ≤ calls, ∀ j, t.choiceAt j = s.choiceAt (k + j)

/-- What lies above the bytes written anew stays. -/
theorem Refilled.read {m m' : Memory} {n n' cap i : Nat} (h : Refilled m m' n n' cap)
    (hi : cap ≤ i) : m'.read i = m.read i := by
  obtain ⟨rfl, -⟩ | ⟨bs, hb, rfl, -⟩ := h
  · rfl
  · rw [Memory.read_writeBytes, if_neg (by omega)]

/-- A buffer refilled within its capacity is as the invariant says. -/
theorem Refilled.holds {m m' : Memory} {n n' cap top : Nat} (h : Refilled m m' n n' cap)
    (hc : cap ≤ top) (hm : m.holds n top) : m'.holds n' top := by
  obtain ⟨rfl, rfl⟩ | ⟨bs, hb, rfl, hn⟩ := h
  · exact hm
  · obtain ⟨hwf, -, habove, -⟩ := hm
    refine ⟨Memory.wf_writeBytes m 0 bs hwf, fun i hi => ?_, fun i hi => ?_, by omega⟩
    · rw [Memory.read_writeBytes, if_pos (by omega)]
      simp
      omega
    · rw [Memory.read_writeBytes, if_neg (by omega)]
      exact habove i hi

theorem Effect.out_prefix {s t : State} {n tx rx : Nat} (h : Effect s t n tx rx) :
    s.out <+: t.out := by
  obtain ⟨bs, -, ho⟩ := h.out
  exact ⟨bs, ho.symm⟩

theorem Effect.out_eq {s t : State} {n rx : Nat} (h : Effect s t n 0 rx) : t.out = s.out := by
  obtain ⟨bs, hb, ho⟩ := h.out
  rw [ho, List.eq_nil_of_length_eq_zero (Nat.le_zero.1 hb), List.append_nil]

theorem deliveriesOf_append (a b : List Call) :
    deliveriesOf (a ++ b) = deliveriesOf a ++ deliveriesOf b := by
  induction a with
  | nil => rfl
  | cons c a ih => cases c <;> simp [deliveriesOf, ih]

theorem Effect.refl (s : State) (tx rx : Nat) : Effect s s 0 tx rx where
  params := rfl
  addr := rfl
  dlenSel := rfl
  baudSel := rfl
  consumerValid := rfl
  fsm := rfl
  sessionP := rfl
  rxcount := rfl
  xbuf := rfl
  xlen := rfl
  speed := rfl
  inputs := rfl
  out := ⟨[], Nat.zero_le _, (List.append_nil _).symm⟩
  delivered := rfl
  txbuf := .refl ..
  rxbuf := .refl ..
  choices := ⟨0, Nat.le_refl 0, fun j => by rw [Nat.zero_add]⟩

/-- More calls and more room may be allowed. -/
theorem Effect.mono {s t : State} {n tx rx n' tx' rx' : Nat} (h : Effect s t n tx rx)
    (hn : n ≤ n') (htx : tx ≤ tx') (hrx : rx ≤ rx') : Effect s t n' tx' rx' where
  params := h.params
  addr := h.addr
  dlenSel := h.dlenSel
  baudSel := h.baudSel
  consumerValid := h.consumerValid
  fsm := h.fsm
  sessionP := h.sessionP
  rxcount := h.rxcount
  xbuf := h.xbuf
  xlen := h.xlen
  speed := h.speed
  inputs := h.inputs
  out := h.out.imp fun _ ⟨hb, ho⟩ => ⟨Nat.le_trans hb htx, ho⟩
  delivered := h.delivered
  txbuf := h.txbuf.imp_right fun ⟨bs, hb, he⟩ => ⟨bs, Nat.le_trans hb htx, he⟩
  rxbuf := h.rxbuf.imp_right fun ⟨bs, hb, he⟩ => ⟨bs, Nat.le_trans hb hrx, he⟩
  choices := h.choices.imp fun _ ⟨hk, hj⟩ => ⟨Nat.le_trans hk hn, hj⟩

theorem State.appendOut_nil (s : State) : s.appendOut [] = s := by
  simp [State.appendOut]

/-- One call that is no delivery, and the record of it. -/
theorem Effect.call {s t : State} {n tx rx : Nat} (h : Effect s t n tx rx) (sent : List Byte)
    (inq : List Byte) (c : Call) (hc : deliveriesOf [c] = [])
    (hs : sent = [] ∨ (t.out = s.out ∧ sent.length ≤ tx)) :
    Effect s (((t.beginCall.appendOut sent).setIn inq).record c) (n + 1) tx rx where
  params := by simpa using h.params
  addr := by simpa using h.addr
  dlenSel := by simpa using h.dlenSel
  baudSel := by simpa using h.baudSel
  consumerValid := by simpa using h.consumerValid
  fsm := by simpa using h.fsm
  sessionP := by simpa using h.sessionP
  rxcount := by simpa using h.rxcount
  xbuf := by simpa using h.xbuf
  xlen := by simpa using h.xlen
  speed := by simpa using h.speed
  inputs := by simpa using h.inputs
  out := by
    obtain rfl | ⟨ho, hl⟩ := hs
    · simpa using h.out
    · exact ⟨sent, hl, by simp [ho]⟩
  delivered := by
    simp only [State.record_calls, State.setIn_calls, State.appendOut_calls,
      State.beginCall_calls, deliveriesOf_append, hc, List.append_nil]
    exact h.delivered
  txbuf := by simpa using h.txbuf
  rxbuf := by simpa using h.rxbuf
  choices := by
    obtain ⟨k, hk, hj⟩ := h.choices
    refine ⟨k + 1, by omega, fun j => ?_⟩
    simp only [State.choiceAt_record, State.choiceAt_setIn, State.choiceAt_appendOut,
      State.choiceAt_beginCall, hj]
    congr 1
    omega

/-! ## The shared operations -/

/-- `T.write`: a call. -/
theorem tWrite_ends {s t : State} {n tx rx : Nat} (h : Effect s t n tx rx) (bs : List Byte)
    (ho : t.out = s.out) (hb : bs.length ≤ tx) :
    (tWrite bs t).ends (fun _ u => Effect s u (n + 1) tx rx ∧ u.txlen = t.txlen)
      (fun _ _ => False)
      (fun u => Effect s u (n + 1) tx rx ∧ t.choice.reset = true) False := by
  have key := fun r c => h.call (bs.take r) (t.inq ++ t.choice.arrived) (.write bs r c) rfl
    (.inr ⟨ho, Nat.le_trans (List.length_take_le' _ _) hb⟩)
  unfold tWrite
  simp only
  split
  · exact ⟨key _ _, by assumption⟩
  · split <;> exact ⟨key _ _, rfl⟩

/-- `T.read`: a call. -/
theorem tRead_ends {s t : State} {n tx rx : Nat} (h : Effect s t n tx rx) (m time : Nat) :
    (tRead m time t).ends
      (fun r u => Effect s u (n + 1) tx rx ∧ ∀ b, r = .bytes b → b.length ≤ m)
      (fun _ _ => False)
      (fun u => Effect s u (n + 1) tx rx ∧ t.choice.reset = true) False := by
  have key := fun q c hc => h.call [] q c hc (.inl rfl)
  simp only [State.appendOut_nil] at key
  unfold tRead
  simp only
  split
  · exact ⟨key _ _ rfl, by assumption⟩
  · split
    · exact ⟨key _ _ rfl, fun _ hb => by cases hb⟩
    · refine ⟨key _ _ rfl, fun b hb => ?_⟩
      cases hb
      simp only [List.length_take]
      omega

theorem Effect.fillTx {s : State} {tx rx : Nat} (bs : List Byte) (h : bs.length ≤ tx) :
    Effect s (s.fillTx bs) 0 tx rx :=
  { Effect.refl s tx rx with txbuf := .inr ⟨bs, h, rfl, Nat.le_refl _⟩ }

/-- SEND_FRAME: one call, and `TXBUF` (R155). -/
theorem sendTo_ends (kind : Kind) (payload : List Byte) (addr : Bytes4) (s : State) (rx : Nat) :
    let after := fun u => Effect s u 1 (payload.length + 11) rx
    (sendTo kind payload addr s).ends (fun _ u => after u) (fun _ u => after u)
      (fun u => after u ∧ (s.choiceAt 0).reset = true) (¬ s.fits payload) := by
  intro after
  by_cases hf : s.fits payload
  · rw [sendTo_fits kind payload addr s hf]
    simp only
    have hfill := Effect.fillTx (s := s) (rx := rx)
      (encodeFrame s.params kind payload addr) (Nat.le_of_eq (encodeFrame_length ..))
    refine Res.ends_andThen
      (Res.ends_mono (tWrite_ends hfill _ rfl (Nat.le_of_eq (encodeFrame_length ..))) (fun _ _ h => h) (fun _ _ h => h.elim)
        (fun u h => h) False.elim) ?_
    rintro (c | _) u ⟨hu, -⟩
    · simp only
      split <;> exact hu
    · exact hu
  · unfold sendTo
    rw [encodeTx_too_long kind payload addr s hf]
    exact hf

/-- The checks on a whole buffer touch nothing, and what they let through is of an accepted kind (R156). -/
theorem judgeFrame_ends (verdict : Bool) (payload buf : List Byte) (accept : List Kind)
    (expected : Nat) (s : State) :
    (judgeFrame verdict payload buf accept expected s).ends
      (fun kp u => u = s ∧ kp.1 ∈ accept ∧ kp.2 = payload)
      (fun _ u => u = s) (fun _ => False) False := by
  unfold judgeFrame
  split
  · split
    · rfl
    · rename_i hv
      split
      · rename_i k hk
        refine ⟨rfl, ?_, rfl⟩
        unfold validateHeader at hv
        have hacc : kindAccepted s.params accept buf = true := by
          split at hv <;> try cases hv
          split at hv <;> try cases hv
          split at hv <;> try cases hv
          rename_i h
          simpa using h
        unfold kindAccepted at hacc
        have hk' : kindOf s.params (byteAt buf 6) = some k := hk
        rw [hk'] at hacc
        simpa using hacc
      · rfl
  · rfl

/-- A buffer that nothing was written to is as it was. -/
theorem Refilled.eq {m m' : Memory} {n n' : Nat} (h : Refilled m m' n n' 0) : m' = m := by
  obtain ⟨hm, -⟩ | ⟨bs, hl, hm, -⟩ := h
  · exact hm
  · rw [hm, List.eq_nil_of_length_eq_zero (Nat.le_zero.1 hl)]
    rfl

theorem Effect.fillRx {s t : State} {n tx rx : Nat} (h : Effect s t n tx 0) (bs : List Byte)
    (hb : bs.length ≤ rx) : Effect s (t.fillRx bs) n tx rx :=
  { h with
    rxbuf := .inr ⟨bs, hb, by rw [State.fillRx_rxbuf, h.rxbuf.eq], Nat.le_refl _⟩ }

theorem Effect.overfillRx {s t : State} {n tx rx : Nat} (h : Effect s t n tx 0) (bs : List Byte)
    (hb : rxCapacity < bs.length) (hr : rxCapacity ≤ rx) : Effect s (t.overfillRx bs) n tx rx :=
  { h with
    rxbuf := by
      refine .inr ⟨bs.take rxCapacity, ?_, by rw [State.overfillRx_rxbuf, h.rxbuf.eq], ?_⟩ <;>
        simp only [List.length_take, State.overfillRx_rxlen] <;> omega }

/-- RECV_FRAME: one call, and `RXBUF` where a whole frame came, no further than it reaches; where the
expected length is one of a frame the payload has the expected size (R156). -/
theorem recvFrame_ends {s t : State} {n tx : Nat} (h : Effect s t n tx 0)
    (accept : List Kind) (expected time : Nat) :
    let after := fun u => Effect s u (n + 1) tx (min (9 + expected) rxCapacity)
    (recvFrame accept expected time t).ends
      (fun kp u => after u ∧ kp.1 ∈ accept ∧ (ReceivableLength expected → kp.2.length = expected - 2))
      (fun _ u => after u) (fun u => after u ∧ t.choice.reset = true) False := by
  intro after
  have widen : ∀ u, Effect s u (n + 1) tx 0 → after u := fun u hu =>
    hu.mono (Nat.le_refl _) (Nat.le_refl _) (Nat.zero_le _)
  by_cases he : ReceivableLength expected
  · rw [recvFrame_eq accept expected time t he]
    refine Res.ends_andThen (Res.ends_mono (tRead_ends h _ _) (fun _ _ h => h)
      (fun _ _ h => h.elim) (fun u hu => ⟨widen u hu.1, hu.2⟩) False.elim) ?_
    rintro (b | _) u ⟨hu, hb⟩
    · have hlen := hb b rfl
      simp only
      split
      · exact widen u hu
      · split
        · exact widen u hu
        · have hfill : after (u.fillRx b) :=
            hu.fillRx b (by unfold ReceivableLength at he; unfold headerSize at hlen; unfold rxCapacity; omega)
          refine Res.ends_mono (judgeFrame_ends _ _ b accept expected _) ?_ ?_ (fun _ h => h.elim)
            False.elim
          · rintro kp v ⟨rfl, hk, hp⟩
            refine ⟨hfill, hk, fun _ => ?_⟩
            rw [hp]
            simp only [splitFrame, List.length_take, List.length_drop, headerSize, checksumSize]
            unfold headerSize at *
            omega
          · rintro e v rfl
            exact hfill
    · exact widen u hu
  · rw [recvFrame_unsized accept expected time t he]
    refine Res.ends_andThen (Res.ends_mono (tRead_ends h _ _) (fun _ _ h => h)
      (fun _ _ h => h.elim) (fun u hu => ⟨widen u hu.1, hu.2⟩) False.elim) ?_
    rintro (b | _) u ⟨hu, hb⟩
    · have hlen := hb b rfl
      simp only
      split
      · exact widen u hu
      · split
        · exact widen u hu
        · have hfill : after (if b.length ≤ rxCapacity then u.fillRx b else u.overfillRx b) := by
            unfold headerSize at hlen
            split
            · exact hu.fillRx b (by omega)
            · exact hu.overfillRx b (by omega) (by omega)
          refine Res.ends_mono (judgeFrame_ends _ _ b accept expected _) ?_ ?_ (fun _ h => h.elim)
            False.elim
          · rintro kp v ⟨rfl, hk, -⟩
            exact ⟨hfill, hk, fun h => (he h).elim⟩
          · rintro e v rfl
            exact hfill
    · exact widen u hu

theorem Effect.reset_of_choices {s t : State} {n tx rx k : Nat} (h : Effect s t n tx rx) (hk : n < k)
    (hr : t.choice.reset = true) : s.noReset k = false := by
  obtain ⟨i, hi, hj⟩ := h.choices
  rw [State.choice_eq, hj] at hr
  rw [State.noReset, Bool.eq_false_iff, ne_eq, List.all_eq_true]
  intro hall
  have := hall (i + 0) (List.mem_range.2 (by omega))
  rw [hr] at this
  cases this

/-- EXCHANGE: two calls, `TXBUF` and `RXBUF`; under a legal binding what it returns beside the status has the
expected size (R157). -/
theorem exchangeTo_ends (addr : Bytes4) (op : CmdOp) (payload : List Byte) (s : State) :
    let after := fun u => Effect s u 2 (payload.length + 11) (min (ackLen s.params op + 11) rxCapacity)
    (exchangeTo addr op payload s).ends
      (fun sf u => after u ∧
        (legalAckLen (ackLen s.params op) = true → sf.2.length + 1 = ackLen s.params op))
      (fun _ u => after u) (fun u => after u ∧ s.noReset 2 = false) (¬ s.fits payload) := by
  intro after
  have widen : ∀ u, Effect s u 1 (payload.length + 11) 0 → after u := fun u hu =>
    hu.mono (by omega) (Nat.le_refl _) (Nat.zero_le _)
  unfold exchangeTo
  refine Res.ends_andThen
    (Res.ends_mono (sendTo_ends .command payload addr s 0) (fun _ _ h => h)
      (fun _ u hu => widen u hu) ?_ (fun h => h)) ?_
  · rintro u ⟨hu, hr⟩
    exact ⟨widen u hu, (Effect.refl s 0 0).reset_of_choices (by omega) hr⟩
  · rintro - u hu
    refine Res.ends_andThen
      (Res.ends_mono (recvFrame_ends hu acceptAck (ackLen u.params op + checksumSize)
        (Config.timeout op)) (fun _ _ h => h) ?_ ?_ False.elim) ?_
    all_goals rw [hu.params]
    · rintro e v hv
      exact hv.mono (by omega) (Nat.le_refl _) (by unfold checksumSize; omega)
    · rintro v ⟨hv, hr⟩
      exact ⟨hv.mono (by omega) (Nat.le_refl _) (by unfold checksumSize; omega),
        hu.reset_of_choices (by omega) hr⟩
    · rintro ⟨k, p⟩ v ⟨hv, -, hp⟩
      have hv' : after v := hv.mono (by omega) (Nat.le_refl _) (by unfold checksumSize; omega)
      simp only [checksumSize, ReceivableLength] at hp
      cases p with
      | nil =>
        refine ⟨hv', fun hl => ?_⟩
        simp only [legalAckLen, Bool.and_eq_true, decide_eq_true_eq] at hl
        simp only [List.length_nil] at hp
        omega
      | cons st f =>
        refine ⟨hv', fun hl => ?_⟩
        simp only [legalAckLen, Bool.and_eq_true, decide_eq_true_eq] at hl
        have := hp (by omega)
        simp only [List.length_cons] at this
        simp only
        omega

/-- The abort action: at most one more call, `IN` emptied, and `Idle` (R262). -/
theorem takeError_effect {s t : State} {n tx rx : Nat} (h : Effect s t n tx rx) (e : ErrorKind) :
    ((takeError e t).result = some (.err e) ∧
      Effect (s.setFsm .idle) (takeError e t) (n + 1) tx rx) ∨
    (t.choice.reset = true ∧ ∃ u, Effect s u (n + 1) tx rx ∧ takeError e t = u.resetEvent) := by
  have hidle : ∀ {u : State} {m : Nat}, Effect s u m tx rx → ∀ r,
      Effect (s.setFsm .idle) ((u.setFsm .idle).setResult r) m tx rx := fun h r =>
    { h with fsm := rfl, choices := h.choices }
  have hcall : Effect s t.flushed (n + 1) tx rx := by
    unfold State.flushed
    simpa only [State.appendOut_nil] using h.call [] [] .flush rfl (.inl rfl)
  obtain ⟨-, ht⟩ | ⟨-, -, ht⟩ | ⟨-, hr, ht⟩ := takeError_cases e t
  · exact .inl ⟨by rw [ht]; rfl, ht ▸ hidle (h.mono (by omega) (Nat.le_refl _) (Nat.le_refl _)) _⟩
  · exact .inl ⟨by rw [ht]; rfl, ht ▸ hidle hcall _⟩
  · exact .inr ⟨hr, _, hcall, ht⟩

/-! ## The upload -/

/-- The state in which the frame just received, with payload `raw`, is expanded, counted and delivered. -/
def State.delivered (t : State) (raw : List Byte) : State :=
  ((t.fillX (expandBytes raw)).countFrame.beginCall).record (.deliver (expandBytes raw))

/-- One iteration while streaming (R225 to R228): a frame of `SESSION_P` bytes is received, expanded,
counted and delivered, and the stream goes on or ends with success; or an error is raised and nothing
is expanded, counted or delivered. It refuses at most where `SESSION_P` is no packet length. -/
theorem streamFrame_ends (s : State) :
    let got := fun t => Effect s t 1 0 (min (s.sessionP.toNat + 11) rxCapacity)
    (streamFrame s).ends
      (fun v u => ∃ t raw, got t ∧ (s.sessionP.toNat ≤ 256 → raw.length = s.sessionP.toNat) ∧
        raw.length ≤ 256 ∧
        ((v = none ∧ u = t.delivered raw) ∨
         (v = some (.status s.params.stSuccess) ∧ u = (t.delivered raw).setFsm .idle)))
      (fun _ u => got u)
      (fun u => u.params = s.params ∧ s.noReset 2 = false) (256 < s.sessionP.toNat) := by
  intro got
  unfold streamFrame
  refine Res.ends_andThen
    (Res.ends_mono (recvFrame_ends (Effect.refl s 0 0) acceptTransfer _ Config.timeoutStream)
      (fun _ _ h => h) ?_ ?_ False.elim) ?_
  · rintro e u hu
    exact hu.mono (by omega) (Nat.le_refl _) (by unfold checksumSize; omega)
  · rintro u ⟨hu, hr⟩
    exact ⟨hu.params, (Effect.refl s 0 0).reset_of_choices (by omega) hr⟩
  · rintro ⟨k, raw⟩ t ⟨ht, hk, hraw⟩
    have hgot : got t := ht.mono (by omega) (Nat.le_refl _) (by unfold checksumSize; omega)
    simp only [checksumSize, ReceivableLength] at hraw
    have hlen : s.sessionP.toNat ≤ 256 → raw.length = s.sessionP.toNat := fun h => by
      have := hraw (by omega)
      omega
    by_cases h256 : raw.length ≤ 256
    · rw [expandX_fits raw t h256]
      have hx : ((t.fillX (expandBytes raw)).countFrame).xbuf.readBytes 0
          ((t.fillX (expandBytes raw)).countFrame).xlen = some (expandBytes raw) := by
        rw [State.countFrame_xbuf, State.countFrame_xlen, State.fillX_xbuf, State.fillX_xlen]
        exact Memory.readBytes_writeBytes ..
      simp only [Res.andThen_ok, hx, deliver]
      split
      · rename_i hr
        exact ⟨ht.params, ht.reset_of_choices (by omega) hr⟩
      · have hstop : s.params = (t.delivered raw).params := hgot.params.symm
        simp only [Res.andThen_ok]
        cases k with
        | command => simp [acceptTransfer] at hk
        | acknowledge => simp [acceptTransfer] at hk
        | data => exact ⟨t, raw, hgot, hlen, h256, .inl ⟨rfl, rfl⟩⟩
        | endOfData =>
          refine ⟨t, raw, hgot, hlen, h256, .inr ⟨?_, rfl⟩⟩
          rw [hstop]
          rfl
    · unfold expandX
      rw [if_neg h256]
      exact (by omega : 256 < s.sessionP.toNat)

/-! ## Corollaries for the operations that run whole exchanges -/

theorem legalAckLen_ackLen {p : Params} (h : p.ok = true) (op : CmdOp) :
    legalAckLen (ackLen p op) = true := by
  have hb := (params_ok_bounds h).2.2.2 op
  simp only [legalAckLen, Bool.and_eq_true, decide_eq_true_eq]
  omega

/-- Under a legal binding an exchange never stops the machine: it completes, raises or is reset. -/
theorem exchangeTo_runs (addr : Bytes4) (op : CmdOp) (payload : List Byte) (s : State)
    (hp : s.params.ok = true) (hm : payload.length ≤ s.params.maxPayload) :
    let after := fun u => Effect s u 2 (payload.length + 11) (min (ackLen s.params op + 11) rxCapacity)
    (∃ st f u, exchangeTo addr op payload s = .ok (st, f) u ∧ after u ∧
      f.length + 1 = ackLen s.params op) ∨
    (∃ e u, exchangeTo addr op payload s = .raise e u ∧ after u) ∨
    (∃ u, exchangeTo addr op payload s = .reset u ∧ after u) := by
  have hb := params_ok_bounds hp
  have h := exchangeTo_ends addr op payload s
  cases hx : exchangeTo addr op payload s with
  | ok a u => rw [hx] at h; exact .inl ⟨a.1, a.2, u, rfl, h.1, h.2 (legalAckLen_ackLen hp op)⟩
  | raise e u => rw [hx] at h; exact .inr (.inl ⟨e, u, rfl, h⟩)
  | reset u => rw [hx] at h; exact .inr (.inr ⟨u, rfl, h.1⟩)
  | fault f => rw [hx] at h; exact h.elim
  | refused q =>
    rw [hx] at h
    exact absurd ⟨hm, by unfold maxLength16; omega⟩ h

/-- The three ways out of `AwaitingGenerateAck`, and what each leaves. -/
theorem awaitAck_ends (addr : Bytes4) (s : State) :
    let after := fun u => Effect s u 2 12 (min (ackLen s.params .upImage + 11) rxCapacity)
    (awaitAck addr s).ends
      (fun v u => ∃ t, after t ∧
        ((v = none ∧ u = t.setFsm .streamingFrames) ∨
          (∃ st, st ≠ s.params.stSuccess ∧ v = some (.status st) ∧ u = t.setFsm .idle)))
      (fun _ u => after u)
      (fun u => after u ∧ s.noReset 2 = false)
      (¬ s.fits [s.params.icUpImage]) := by
  intro after
  unfold awaitAck
  refine Res.ends_andThen (exchangeTo_ends addr .upImage [s.params.icUpImage] s) ?_
  rintro ⟨st, f⟩ u ⟨hu, -⟩
  simp only
  split
  · exact ⟨u, hu, .inl ⟨rfl, rfl⟩⟩
  · rename_i h
    rw [hu.params] at h
    exact ⟨u, hu, .inr ⟨st, h, rfl, rfl⟩⟩

/-- Taking an error returns the error, or nothing if a reset lands in its flush. -/
theorem takeError_result (e : ErrorKind) (s : State) :
    (takeError e s).result = some (.err e) ∨ (takeError e s).result = none := by
  obtain ⟨-, k⟩ | ⟨-, -, k⟩ | ⟨-, -, k⟩ := takeError_cases e s <;> rw [k] <;> simp

/-- Taking an error delivers nothing. -/
theorem takeError_delivered (e : ErrorKind) (s : State) :
    deliveriesOf (takeError e s).calls = deliveriesOf s.calls := by
  obtain ⟨-, k⟩ | ⟨-, -, k⟩ | ⟨-, -, k⟩ := takeError_cases e s <;> rw [k] <;>
    simp [deliveriesOf_append, deliveriesOf]

end Sys2Proof.Machine
end

