-- ==== Sys2Proof/Laws/Result.lean ====
section
/-! SUPPORT. No operation reads the last result: setting it before an operation only sets it in the
state the operation leaves. -/

namespace Sys2Proof.Machine

/-- The state an operation leaves, changed by `f`. -/
def Res.mapState {α : Type} (f : State → State) : Res α → Res α
  | .ok a s => .ok a (f s)
  | .raise e s => .raise e (f s)
  | .reset s => .reset (f s)
  | .fault x => .fault x
  | .refused q => .refused q

theorem takeError_setResult (e : ErrorKind) (s : State) (r : Option OpResult) :
    takeError e (s.setResult r) = takeError e s := by
  unfold takeError
  simp only [State.setResult_params, State.choice_eq, State.choiceAt_setResult]
  by_cases h : flushes s.params e = true
  · simp only [h, if_true]
    by_cases h2 : (s.choiceAt 0).reset = true
    · simp only [h2, if_true]; rfl
    · simp only [h2]; rfl
  · simp only [h]; rfl

theorem finish_setResult (x : Res OpValue) (r : Option OpResult) :
    finish (x.mapState (·.setResult r)) = finish x := by
  cases x <;> simp [Res.mapState, takeError_setResult] <;> rfl

theorem tRead_setResult (n t : Nat) (s : State) (r : Option OpResult) :
    tRead n t (s.setResult r) = (tRead n t s).mapState (·.setResult r) := by
  unfold tRead
  simp only [State.choice_eq, State.choiceAt_setResult]
  by_cases h : (s.choiceAt 0).reset = true
  · simp only [h, if_true]; rfl
  · by_cases h2 : (s.choiceAt 0).error = true
    · simp only [h, h2]; rfl
    · simp only [h, h2]; rfl

theorem tReconfigure_setResult (m : Nat) (s : State) (r : Option OpResult) :
    tReconfigure m (s.setResult r) = (tReconfigure m s).mapState (·.setResult r) := by
  unfold tReconfigure
  simp only [State.choice_eq, State.choiceAt_setResult]
  by_cases h : (s.choiceAt 0).reset = true
  · simp only [h, if_true]; rfl
  · simp only [h]; rfl

theorem acceptFrame_setResult (buf : List Byte) (accept : List Kind) (expected : Nat) (s : State)
    (r : Option OpResult) :
    acceptFrame buf accept expected (s.setResult r) =
      (acceptFrame buf accept expected s).mapState (·.setResult r) := by
  unfold acceptFrame judgeFrame
  simp only [State.setResult_params, State.setResult_addr]
  split
  · split
    · rfl
    · split <;> rfl
  · rfl

theorem recvFrame_setResult (accept : List Kind) (expected t : Nat) (s : State)
    (r : Option OpResult) (he : 2 ≤ expected ∧ expected ≤ 258) :
    recvFrame accept expected t (s.setResult r) =
      (recvFrame accept expected t s).mapState (·.setResult r) := by
  rw [recvFrame_eq _ _ _ _ he, recvFrame_eq _ _ _ _ he, tRead_setResult]
  cases tRead (headerSize + expected) t s with
  | ok a u =>
    simp only [Res.mapState, Res.andThen_ok]
    cases a with
    | error => rfl
    | bytes b =>
      simp only
      split
      · rfl
      split
      · rfl
      exact acceptFrame_setResult b accept expected (u.fillRx b) r
  | raise e u => rfl
  | reset u => rfl
  | fault f => rfl
  | refused q => rfl

end Sys2Proof.Machine
end

