-- ==== Sys2Proof/Laws/Step.lean ====
section
/-! SUPPORT. The step: with nothing presented the block goes on by itself; what is presented runs or
waits; one step more of a run. -/

namespace Sys2Proof.Machine

theorem step_advance (s : State) (h : s.inputs = []) : step s = advance s := by
  unfold step
  rw [h]

theorem advance_idle (s : State) (h : s.fsm = .idle) : advance s = .next s := by
  unfold advance
  rw [h]

theorem advance_awaiting (s : State) (h : s.fsm = .awaitingGenerateAck) :
    advance s = finishRun (awaitAck s.addr s) := by
  unfold advance
  rw [h]

theorem advance_streaming (s : State) (h : s.fsm = .streamingFrames) :
    advance s = finishRun (streamFrame s) := by
  unfold advance
  rw [h]

/-! ## Taking an instruction -/

theorem State.takes_of_idle {s : State} (i : Instr) (h : s.fsm = .idle) : s.takes i = true := by
  unfold State.takes
  split <;> simp [h]

theorem State.takes_of_fromModule {s : State} {i : Instr} (h : i.fromModule = true) :
    s.takes i = true := by
  unfold State.takes
  rw [of_decide_eq_true h]

theorem State.takes_upImage {s : State} (a : Bytes4) (c : Half)
    (h : s.fsm = .awaitingGenerateAck) : s.takes (.upImage a c) = true := by
  simp [State.takes, Instr.source, h]

/-- In the state made ready for an instruction the block takes it. -/
theorem State.takes_readyFor (s : State) (i : Instr) : (s.readyFor i).takes i = true := by
  unfold State.takes State.readyFor
  cases i.source with
  | line => rfl
  | block => rfl
  | upload =>
    simp only
    split
    · rename_i h
      simp [h]
    · simp

@[simp] theorem State.takes_setInputs (s : State) (is : List Input) (i : Instr) :
    (s.setInputs is).takes i = s.takes i := rfl

@[simp] theorem State.readyFor_params (s : State) (i : Instr) :
    (s.readyFor i).params = s.params := by
  unfold State.readyFor
  split
  · rfl
  · split <;> rfl
  · rfl

@[simp] theorem State.readyFor_inputs (s : State) (i : Instr) :
    (s.readyFor i).inputs = s.inputs := by
  unfold State.readyFor
  split
  · rfl
  · split <;> rfl
  · rfl

/-- A taken instruction runs, with the rest still presented. -/
theorem step_issue {s : State} {i : Instr} {rest : List Input} (h : s.inputs = .issue i :: rest)
    (ht : s.takes i = true) : step s = exec i (s.setInputs rest) := by
  unfold step runPending
  rw [h]
  simp only [ht, if_true]

/-- The same for an instruction that is presented as bytes. -/
theorem step_code {s : State} {i : Instr} {bs : List Byte} {rest : List Input}
    (h : s.inputs = .code bs :: rest) (hd : decode s.params bs = .ok i) (ht : s.takes i = true) :
    step s = exec i (s.setInputs rest) := by
  unfold step runPending
  rw [h]
  simp only [hd, ht, if_true]

/-- What the block does not take waits, and the running upload goes on. -/
theorem step_waits {s : State} {i : Instr} {rest : List Input} (h : s.inputs = .issue i :: rest)
    (ht : s.takes i = false) : step s = advance s := by
  unfold step runPending
  rw [h]
  simp only [ht, Bool.false_eq_true, if_false]

/-- The same for an instruction presented as bytes. -/
theorem step_code_waits {s : State} {i : Instr} {bs : List Byte} {rest : List Input}
    (h : s.inputs = .code bs :: rest) (hd : decode s.params bs = .ok i) (ht : s.takes i = false) :
    step s = advance s := by
  unfold step runPending
  rw [h]
  simp only [hd, ht, Bool.false_eq_true, if_false]

/-! ## Runs -/

theorem core_run_succ (n : Nat) (s t : State) (h : step s = .next t) :
    core.run (n + 1) s = core.run n t := by
  have general : ∀ (M : Host.Core) (a b : M.State), M.step a = .next b →
      M.run (n + 1) a = M.run n b := fun M a b h => by
    simp only [Host.Core.run, h]
  exact general core s t h

end Sys2Proof.Machine
end

