-- ==== Sys2Proof/Tests/Slice0.lean ====
section
/-! SUPPORT. Tests. Expected results are those of spec/95_test_vectors.md (V…, P…) or worked out by hand
from the rule named; none is the model's own answer. After them, a witness for the hypotheses of every
obligation that has hypotheses, each clause with one, at a boundary where it has a range. -/

namespace Sys2Proof.Tests

open Sys2Proof.Machine

set_option Elab.async false

/-! ## Helpers -/

/-- `FF FF FF FF`, the default address of P0. -/
def ff : Bytes4 := ⟨0xFF#8, 0xFF#8, 0xFF#8, 0xFF#8⟩

/-- P0 with a value for the one parameter it gives none. -/
def binding : Params := { Params.p0 with sysIdConst := 0#16 }

/-- The state right after reset, with the environment's next choices. -/
def start (env : List EnvChoice) : State := { State.resetWith binding with env := env }

/-- A call that moves up to `n` bytes; before it, nothing arrives. -/
def moves (n : Nat) : EnvChoice := ⟨[], n, false, false⟩

/-- A read before which `bs` arrives, and which takes up to as many bytes. -/
def brings (bs : List Byte) : EnvChoice := ⟨bs, bs.length, false, false⟩

/-- A call that reports `Error`. -/
def fails : EnvChoice := ⟨[], 0, true, false⟩

/-- A call into which the reset event lands. -/
def resets : EnvChoice := ⟨[], 0, false, true⟩

/-- Whether an outcome is a next state that passes a check. -/
def next (o : Host.Outcome State Fault Refusal) (check : State → Bool) : Bool :=
  match o with
  | .next s => check s
  | .fault _ => false
  | .refused _ => false

/-- Whether an outcome is a given refusal. -/
def refuses (o : Host.Outcome State Fault Refusal) (r : Refusal) : Bool :=
  match o with
  | .next _ => false
  | .fault _ => false
  | .refused q => decide (q = r)

/-- What the operation returned. -/
def gives (o : Host.Outcome State Fault Refusal) (r : Option OpResult) : Bool :=
  next o fun s => decide (s.result = r)

/-- `00 01 … n-1`. -/
def ramp (n : Nat) : List Byte := (List.range n).map (BitVec.ofNat 8)

/-- V40-12: the success acknowledgement. -/
def ackOk : List Byte :=
  [0xEF, 0x01, 0xFF, 0xFF, 0xFF, 0xFF, 0x07, 0x00, 0x03, 0x00, 0x00, 0x0A]

/-- V42-11: the acknowledgement with status 13. -/
def ack13 : List Byte :=
  [0xEF, 0x01, 0xFF, 0xFF, 0xFF, 0xFF, 0x07, 0x00, 0x03, 0x13, 0x00, 0x1D]

/-- V40-13: a wrong checksum. -/
def ackBad : List Byte :=
  [0xEF, 0x01, 0xFF, 0xFF, 0xFF, 0xFF, 0x07, 0x00, 0x03, 0x00, 0x00, 0x0B]

/-- V43-3: the acknowledgement with a template count. -/
def ackCount : List Byte :=
  [0xEF, 0x01, 0xFF, 0xFF, 0xFF, 0xFF, 0x07, 0x00, 0x05, 0x00, 0x00, 0x05, 0x00, 0x11]

/-- V42-10: the acknowledgement with the system parameters. -/
def ackPara : List Byte :=
  [0xEF, 0x01, 0xFF, 0xFF, 0xFF, 0xFF, 0x07, 0x00, 0x13, 0x00, 0x00, 0x00, 0x00, 0x00, 0x00, 0xC8,
   0x00, 0x03, 0xFF, 0xFF, 0xFF, 0xFF, 0x00, 0x02, 0x00, 0x06, 0x04, 0xE9]

/-- V40-8: a Data frame of 32 bytes AB. -/
def dataAB : List Byte :=
  [0xEF, 0x01, 0xFF, 0xFF, 0xFF, 0xFF, 0x02, 0x00, 0x22] ++ List.replicate 32 0xAB#8 ++ [0x15, 0x84]

/-- V40-8: the same bytes as the EndOfData frame. -/
def endAB : List Byte :=
  [0xEF, 0x01, 0xFF, 0xFF, 0xFF, 0xFF, 0x08, 0x00, 0x22] ++ List.replicate 32 0xAB#8 ++ [0x15, 0x8A]

/-- A block that streams frames of 32 bytes, with `frames` on the line. -/
def streaming (env : List EnvChoice) : State :=
  { start env with fsm := .streamingFrames, consumerValid := true, sessionP := 32#9 }

/-! ## Well-formedness: an ill-formed term for each check -/

/-- A frame whose length field is not its payload's length plus 2 (R84), and one whose checksum is not
the sum (R85), of each frame row. -/
theorem test_wf_computed_fields :
    [Instr.frameCommand ff 5#16 [0x0F#8, 0#8] 0x0015#16, .frameCommand ff 4#16 [0x0F#8, 0#8] 0x0015#16,
     .frameData ff 3#16 [] 0x0005#16, .frameData ff 2#16 [] 0x0005#16,
     .frameAck ff 5#16 [0#8, 5#8] 0x0011#16, .frameAck ff 4#16 [0#8, 5#8] 0x0011#16,
     .frameEnd ff 3#16 [] 0x000B#16, .frameEnd ff 2#16 [] 0x000B#16].all
      (fun i => !wellFormed Params.p0 i) = true := by decide +kernel

/-- A general frame that is another row's frame (R87, R88), or does not fit (R122). -/
theorem test_wf_more_specific_row :
    [Instr.frameCommand ff 3#16 [0x0F#8] 0x0013#16,
     .frameCommand ff 5#16 [0x0E#8, 0x04#8, 0x06#8] 0x001E#16,
     .frameCommand ff 7#16 [0x13#8, 0#8, 0#8, 0#8, 0#8] 0x001B#16,
     .frameCommand ff 259#16 (List.replicate 257 0#8) 0x0005#16,
     .frameAck ff 3#16 [0#8] 0x000A#16, .frameAck ff 5#16 [0#8, 0#8, 5#8] 0x0011#16,
     .frameAck ff 19#16 (List.replicate 17 0#8) 0x001A#16].all
      (fun i => !wellFormed Params.p0 i) = true := by decide +kernel

/-- A request or acknowledgement row whose checksum is one more than the sum (R85). -/
theorem test_wf_row_checksum :
    [Instr.vfyPwd ff ⟨0#8, 0#8, 0#8, 0#8⟩ 0x001C#16, .readSysPara ff 0x0014#16,
     .templateNum ff 0x0022#16, .setBaud ff 6#8 0x001F#16, .setSecurity ff 3#8 0x001D#16,
     .setDatalen ff 3#8 0x001E#16, .genImage ff 0x0006#16, .upImage ff 0x000F#16,
     .ackStatus ff 0#8 0x000B#16, .ackTemplateNum ff 0#8 5#16 0x0012#16,
     .ackSysPara ff 0#8 ⟨0#16, 0#16, 200#16, 3#16, ff, 2#16, 6#16⟩ 0x04EA#16].all
      (fun i => !wellFormed Params.p0 i) = true := by decide +kernel

/-- An operation whose operand lies outside the domain its rule gives it. -/
theorem test_wf_operands :
    [Instr.opChecksum .data 1 [], .opEncode .data (List.replicate 257 0#8) ff,
     .opDecode (List.replicate 10 0#8), .opVerifyChecksum (List.replicate 10 0#8),
     .opValidate (List.replicate 8 0#8) [.data] 3, .opValidate ackOk [] 3,
     .opValidate ackOk [.data] 65536, .opTWrite (List.replicate 10 0#8), .opTRead 10 0,
     .opTRead 268 0, .opTReconfigureSpeed 3, .opSendFrame .command (List.replicate 257 0#8),
     .opRecvFrame [] 3 0, .opRecvFrame [.data] 1 0, .opRecvFrame [.data] 259 0,
     .opExchange .genImage (List.replicate 257 0#8), .opExpand (List.replicate 257 0#8)].all
      (fun i => !wellFormed Params.p0 i) = true := by decide +kernel

/-- The frames of the decode tests below are well-formed. -/
theorem test_wf_good :
    [Instr.frameCommand ff 4#16 [0x0F#8, 0#8] 0x0014#16, .frameData ff 34#16
       (List.replicate 32 0xAB#8) 0x1584#16, .frameAck ff 4#16 [0#8, 5#8] 0x0010#16,
     .frameEnd ff 2#16 [] 0x000A#16, .vfyPwd ff ⟨0#8, 0#8, 0#8, 1#8⟩ 0x001C#16,
     .setBaud ff 0x0C#8 0x0024#16, .ackTemplateNum ff 0#8 5#16 0x0011#16,
     .ackSysPara ff 0#8 ⟨0#16, 0#16, 200#16, 3#16, ff, 2#16, 6#16⟩ 0x04E9#16].all
      (wellFormed Params.p0) = true := by decide +kernel

/-! ## Decoding: a word of each row -/

/-- 30_encoding.md R80, R83, R85: kind 01, length 4, payload 0F 00, checksum 01+00+04+0F. -/
theorem test_decode_frame_command :
    decodeTableWord 104 0x1400000F040001FFFFFFFF01EF =
      some (.frameCommand ff 4#16 [0x0F#8, 0x00#8] 0x0014#16) := by decide +kernel

/-- V40-8. -/
theorem test_decode_frame_data :
    decodeTableWord 344 0x8415ABABABABABABABABABABABABABABABABABABABABABABABABABABABABABABABAB220002FFFFFFFF01EF =
      some (.frameData ff 34#16 (List.replicate 32 0xAB#8) 0x1584#16) := by decide +kernel

/-- R80, R83, R85: kind 07, length 4, payload 00 05, checksum 07+00+04+05. -/
theorem test_decode_frame_ack :
    decodeTableWord 104 0x10000500040007FFFFFFFF01EF =
      some (.frameAck ff 4#16 [0x00#8, 0x05#8] 0x0010#16) := by decide +kernel

/-- V40-6. -/
theorem test_decode_frame_end :
    decodeTableWord 88 0x0A00020008FFFFFFFF01EF =
      some (.frameEnd ff 2#16 [] 0x000A#16) := by decide +kernel

/-- program P1, step 2. -/
theorem test_decode_vfy_pwd :
    decodeTableWord 128 0x1C000100000013070001FFFFFFFF01EF =
      some (.vfyPwd ff ⟨0#8, 0#8, 0#8, 1#8⟩ 0x001C#16) := by decide +kernel

/-- V40-7: another address. -/
theorem test_decode_read_sys_para :
    decodeTableWord 96 0x13000F0300017856341201EF =
      some (.readSysPara ⟨0x12#8, 0x34#8, 0x56#8, 0x78#8⟩ 0x0013#16) := by decide +kernel

/-- V43-3. -/
theorem test_decode_template_num :
    decodeTableWord 96 0x21001D030001FFFFFFFF01EF =
      some (.templateNum ff 0x0021#16) := by decide +kernel

/-- V43-12. -/
theorem test_decode_set_baud :
    decodeTableWord 112 0x24000C040E050001FFFFFFFF01EF =
      some (.setBaud ff 0x0C#8 0x0024#16) := by decide +kernel

/-- V43-5. -/
theorem test_decode_set_security :
    decodeTableWord 112 0x1C0003050E050001FFFFFFFF01EF =
      some (.setSecurity ff 3#8 0x001C#16) := by decide +kernel

/-- V43-7. -/
theorem test_decode_set_datalen :
    decodeTableWord 112 0x1D0003060E050001FFFFFFFF01EF =
      some (.setDatalen ff 3#8 0x001D#16) := by decide +kernel

/-- V43-4. -/
theorem test_decode_gen_image :
    decodeTableWord 96 0x050001030001FFFFFFFF01EF =
      some (.genImage ff 0x0005#16) := by decide +kernel

/-- V45-4. -/
theorem test_decode_up_image :
    decodeTableWord 96 0x0E000A030001FFFFFFFF01EF =
      some (.upImage ff 0x000E#16) := by decide +kernel

/-- V43-8. -/
theorem test_decode_ack_status :
    decodeTableWord 96 0x24001A030007FFFFFFFF01EF =
      some (.ackStatus ff 0x1A#8 0x0024#16) := by decide +kernel

/-- V43-3. -/
theorem test_decode_ack_template_num :
    decodeTableWord 112 0x1100050000050007FFFFFFFF01EF =
      some (.ackTemplateNum ff 0#8 5#16 0x0011#16) := by decide +kernel

/-- V42-10. -/
theorem test_decode_ack_sys_para :
    decodeTableWord 224 0xE90406000200FFFFFFFF0300C8000000000000130007FFFFFFFF01EF =
      some (.ackSysPara ff 0#8 ⟨0#16, 0#16, 200#16, 3#16, ff, 2#16, 6#16⟩ 0x04E9#16) := by decide +kernel

/-- R92, R83: another start marker and a kind byte without a kind (V41-2, V41-5) are no row. -/
theorem test_decode_rejects :
    decodeTableWord 96 0x0A0000030007FFFFFFFF01EE = none ∧
    decodeTableWord 96 0x080000030005FFFFFFFF01EF = none ∧
    decode Params.p0 (List.replicate 10 0#8) = .error .tooShort := by decide +kernel

/-! ## Frame codec and header validator -/

/-- V40-1 and V40-2. -/
theorem test_checksum_small :
    gives (exec (.opChecksum .command 5 [0x13#8, 0#8, 0#8, 0#8, 0#8]) (start []))
      (some (.ok (.checksum 0x001B#16))) = true ∧
    gives (exec (.opChecksum .command 0 []) (start [])) (some (.ok (.checksum 0x0003#16))) = true := by
  decide +kernel

/-- V40-4: the first payload whose sum wraps, and V40-4b, whose length has two bytes that count. -/
theorem test_checksum_wraps :
    gives (exec (.opChecksum .data 257 (List.replicate 257 0xFF#8)) (start []))
      (some (.ok (.checksum 0x0005#16))) = true ∧
    gives (exec (.opChecksum .data 300 (List.replicate 300 0xFF#8)) (start []))
      (some (.ok (.checksum 0x2B05#16))) = true := by decide +kernel

/-- V40-7. -/
theorem test_encode :
    next (exec (.opEncode .command [0x0F#8] ⟨0x12#8, 0x34#8, 0x56#8, 0x78#8⟩) (start []))
      (fun s => decide (s.txlen = 12 ∧ s.txbuf.readBytes 0 12 =
        some [0xEF, 0x01, 0x12, 0x34, 0x56, 0x78, 0x01, 0x00, 0x03, 0x0F, 0x00, 0x13])) = true := by
  decide +kernel

/-- V40-17. -/
theorem test_encode_too_long :
    refuses (exec (.opEncode .data (List.replicate 257 0#8) ff) (start [])) .payloadTooLong = true ∧
    refuses (exec (.opDecode (List.replicate 10 0#8)) (start [])) .bufferTooShort = true := by
  decide +kernel

/-- V40-16. -/
theorem test_decode_fields :
    gives (exec (.opDecode ackCount) (start []))
      (some (.ok (.fields ⟨0xEF#8, 0x01#8, ff, 0x07#8, 5#16, [0#8, 0#8, 5#8], 0x0011#16⟩))) = true := by
  decide +kernel

/-- V40-12 to V40-15. -/
theorem test_verify_checksum :
    verifyChecksum ackOk = true ∧ verifyChecksum ackBad = false ∧
    verifyChecksum [0xEE, 0x01, 0xFF, 0xFF, 0xFF, 0xFF, 0x07, 0x00, 0x03, 0x00, 0x00, 0x0A] = true ∧
    verifyChecksum [0xEF, 0x01, 0xFF, 0xFF, 0xFF, 0xFF, 0x07, 0x00, 0x04, 0x00, 0x00, 0x0B] = true := by
  decide +kernel

/-- V41-1 to V41-5 and V41-8. -/
theorem test_validate :
    gives (exec (.opValidate ackOk [.acknowledge] 3) (start [])) (some (.ok .done)) = true ∧
    gives (exec (.opValidate (0xEE#8 :: ackOk.drop 1) [.acknowledge] 3) (start []))
      (some (.err .startMismatch)) = true ∧
    gives (exec (.opValidate ackOk [.acknowledge] 3)
      ((start []).setAddr ⟨0x12#8, 0x34#8, 0x56#8, 0x78#8⟩)) (some (.err .addressMismatch)) = true ∧
    gives (exec (.opValidate [0xEF, 0x01, 0xFF, 0xFF, 0xFF, 0xFF, 0x05, 0x00, 0x03, 0x00, 0x00, 0x08]
      [.data, .endOfData] 3) (start [])) (some (.err .kindMismatch)) = true ∧
    gives (exec (.opValidate ackOk [.data, .endOfData] 3) (start []))
      (some (.err .kindMismatch)) = true := by decide +kernel

/-- V41-6 and V41-7: the length last, and the earlier of two failing checks. -/
theorem test_validate_order :
    gives (exec (.opValidate [0xEF, 0x01, 0xFF, 0xFF, 0xFF, 0xFF, 0x07, 0x00, 0x04, 0x00, 0x00, 0x0B]
      [.acknowledge] 3) (start [])) (some (.err .lengthMismatch)) = true ∧
    gives (exec (.opValidate [0xEF, 0x01, 0x00, 0x00, 0x00, 0x01, 0x07, 0x00, 0x05, 0x00, 0x00, 0x0C]
      [.acknowledge] 3) (start [])) (some (.err .addressMismatch)) = true := by decide +kernel

/-! ## Transport, frames over the transport, the exchange -/

/-- R150: a write of which 5 bytes are accepted. -/
theorem test_t_write :
    next (exec (.opTWrite ackOk) (start [moves 5]))
      (fun s => decide (s.result = some (.ok (.written 5)) ∧
        s.out = [0xEF, 0x01, 0xFF, 0xFF, 0xFF])) = true := by decide +kernel

/-- R151: a read takes from the front, and leaves the rest in order. -/
theorem test_t_read :
    next (exec (.opTRead 11 0) (start [brings ackOk]))
      (fun s => decide (s.result = some (.ok (.received (ackOk.take 11))) ∧ s.inq = [0x0A])) = true := by
  decide +kernel

/-- R152: what has arrived by the time of the flush goes too. -/
theorem test_t_flush :
    next (exec .opTFlush { start [brings ackOk] with inq := [0x01#8] })
      (fun s => decide (s.inq = [] ∧ s.result = some (.ok .done))) = true := by decide +kernel

/-- R153: done, and failed with the speed unknown. -/
theorem test_t_reconfigure :
    next (exec (.opTReconfigureSpeed 12) (start [moves 0]))
      (fun s => decide (s.speed = .ofSelector 12)) = true ∧
    next (exec (.opTReconfigureSpeed 12) (start [fails]))
      (fun s => decide (s.speed = .unknown ∧ s.result = some (.ok .transportError))) = true := by
  decide +kernel

/-- V42-1. -/
theorem test_send_frame :
    next (exec (.opSendFrame .command [0x0F#8]) (start [moves 12]))
      (fun s => decide (s.result = some (.ok .done) ∧
        s.out = [0xEF, 0x01, 0xFF, 0xFF, 0xFF, 0xFF, 0x01, 0x00, 0x03, 0x0F, 0x00, 0x13])) = true := by
  decide +kernel

/-- V42-2 and V42-3. -/
theorem test_send_frame_errors :
    next (exec (.opSendFrame .command [0x0F#8]) (start [moves 5]))
      (fun s => decide (s.result = some (.err .partialWrite) ∧ s.envIndex = 1)) = true ∧
    gives (exec (.opSendFrame .command [0x0F#8]) (start [fails])) (some (.err .writeFailure)) = true := by
  decide +kernel

/-- V42-4 to V42-6. -/
theorem test_recv_frame_transport :
    gives (exec (.opRecvFrame [.acknowledge] 3 0) (start [moves 12])) (some (.err .notFound)) = true ∧
    gives (exec (.opRecvFrame [.acknowledge] 3 0) (start [brings (ackOk.take 7)]))
      (some (.err .shortRead)) = true ∧
    gives (exec (.opRecvFrame [.acknowledge] 3 0) (start [fails])) (some (.err .readFailure)) = true := by
  decide +kernel

/-- V42-8 and V42-9: the checksum before the header, with a flush; and a good frame. -/
theorem test_recv_frame_checks :
    next (exec (.opRecvFrame [.acknowledge] 3 0) (start [brings (0xEE#8 :: ackBad.drop 1), moves 0]))
      (fun s => decide (s.result = some (.err .checksumMismatch) ∧
        s.calls.getLast? = some .flush)) = true ∧
    gives (exec (.opRecvFrame [.acknowledge] 3 0) (start [brings ackOk]))
      (some (.ok (.frame .acknowledge [0#8]))) = true := by decide +kernel

/-- Operands outside their domain (R153, R156): a speed that no selector stands for can fail as any other,
and a frame longer than `RXBUF` can fail to arrive as any other. -/
theorem test_operands_outside_domain :
    next (exec (.opTReconfigureSpeed 3) (start [fails]))
      (fun s => decide (s.speed = .unknown ∧ s.result = some (.ok .transportError))) = true ∧
    next (exec (.opRecvFrame [.acknowledge] 259 0) (start [brings ackOk]))
      (fun s => decide (s.inq = [] ∧ s.result = some (.err .shortRead))) = true := by decide +kernel

/-- V42-11. -/
theorem test_exchange :
    gives (exec (.opExchange .vfyPwd [0x13#8, 0#8, 0#8, 0#8, 1#8]) (start [moves 16, brings ack13]))
      (some (.ok (.exchanged 0x13#8 []))) = true := by decide +kernel

/-- V42-12: after a partial write nothing is read. -/
theorem test_exchange_partial_write :
    next (exec (.opExchange .vfyPwd [0x13#8, 0#8, 0#8, 0#8, 1#8]) (start [moves 15, brings ack13]))
      (fun s => decide (s.result = some (.err .partialWrite) ∧ s.envIndex = 1)) = true := by
  decide +kernel

/-! ## Commands -/

/-- P1: right and wrong password. -/
theorem test_vfy_pwd :
    next (exec (.opVfyPwd ⟨0#8, 0#8, 0#8, 0#8⟩) (start [moves 16, brings ackOk]))
      (fun s => decide (s.result = some (.ok (.status 0#8)) ∧ s.txlen = 16 ∧ s.rxlen = 12 ∧
        s.out = [0xEF, 0x01, 0xFF, 0xFF, 0xFF, 0xFF, 0x01, 0x00, 0x07, 0x13, 0x00, 0x00, 0x00, 0x00,
          0x00, 0x1B])) = true ∧
    gives (exec (.opVfyPwd ⟨0#8, 0#8, 0#8, 1#8⟩) (start [moves 16, brings ack13]))
      (some (.ok (.status 0x13#8))) = true := by decide +kernel

/-- V43-2 with V42-10's answer. -/
theorem test_read_sys_para :
    next (exec .opReadSysPara (start [moves 12, brings ackPara]))
      (fun s => decide (s.result = some (.ok (.sysPara 0#8
          (some (⟨0#16, 0#16, 200#16, 3#16, ff, 2#16, 6#16⟩, true)))) ∧
        s.out = [0xEF, 0x01, 0xFF, 0xFF, 0xFF, 0xFF, 0x01, 0x00, 0x03, 0x0F, 0x00, 0x13])) = true := by
  decide +kernel

/-- V43-14: an answer from the old address, with the flush. -/
theorem test_set_addr_then_read :
    next (exec .opReadSysPara
      ((start [moves 12, brings ackPara, moves 0]).setAddr ⟨0x12#8, 0x34#8, 0x56#8, 0x78#8⟩))
      (fun s => decide (s.result = some (.err .addressMismatch) ∧ s.calls.getLast? = some .flush ∧
        s.out = [0xEF, 0x01, 0x12, 0x34, 0x56, 0x78, 0x01, 0x00, 0x03, 0x0F, 0x00, 0x13])) = true := by
  decide +kernel

/-- V43-3. -/
theorem test_template_num :
    next (exec .opTemplateNum (start [moves 12, brings ackCount]))
      (fun s => decide (s.result = some (.ok (.templateNum 0#8 (some 5#16))) ∧
        s.out = [0xEF, 0x01, 0xFF, 0xFF, 0xFF, 0xFF, 0x01, 0x00, 0x03, 0x1D, 0x00, 0x21])) = true := by
  decide +kernel

/-- V43-10 and P4: write, read, then reconfigure. -/
theorem test_set_baud :
    next (exec (.opSetBaud 12) (start [moves 14, brings ackOk, moves 0]))
      (fun s => decide (s.result = some (.ok (.status 0#8)) ∧ s.baudSel = 12#4 ∧
        s.speed = .ofSelector 12 ∧ s.calls.getLast? = some (.reconfigure 12 false) ∧
        s.out = [0xEF, 0x01, 0xFF, 0xFF, 0xFF, 0xFF, 0x01, 0x00, 0x05, 0x0E, 0x04, 0x0C, 0x00,
          0x24])) = true := by decide +kernel

/-- V43-12 and V43-11. -/
theorem test_set_baud_errors :
    next (exec (.opSetBaud 12) (start [moves 14, brings ackOk, fails]))
      (fun s => decide (s.result = some (.err .reconfigureFailure) ∧ s.baudSel = 12#4 ∧
        s.envIndex = 3)) = true ∧
    next (exec (.opSetBaud 3) (start []))
      (fun s => decide (s.result = some (.err .invalidParameter) ∧ s.calls = [])) = true := by
  decide +kernel

/-- V43-5. -/
theorem test_set_security :
    next (exec (.opSetSecurity 3) (start [moves 14, brings ackOk]))
      (fun s => decide (s.result = some (.ok (.status 0#8)) ∧
        s.out = [0xEF, 0x01, 0xFF, 0xFF, 0xFF, 0xFF, 0x01, 0x00, 0x05, 0x0E, 0x05, 0x03, 0x00,
          0x1C])) = true := by decide +kernel

/-- V43-6 (S8): no transport call. -/
theorem test_set_security_invalid :
    next (exec (.opSetSecurity 6) (start []))
      (fun s => decide (s = { start [] with result := some (.err .invalidParameter) })) = true ∧
    next (exec (.opSetSecurity 0) (start []))
      (fun s => decide (s = { start [] with result := some (.err .invalidParameter) })) = true := by
  decide +kernel

/-- V43-7 and V43-8. -/
theorem test_set_datalen :
    next (exec (.opSetDatalen 3) (start [moves 14, brings ackOk]))
      (fun s => decide (s.dlenSel = 3#2 ∧ s.result = some (.ok (.status 0#8)))) = true ∧
    next (exec (.opSetDatalen 0) (start [moves 14,
        brings [0xEF, 0x01, 0xFF, 0xFF, 0xFF, 0xFF, 0x07, 0x00, 0x03, 0x1A, 0x00, 0x24]]))
      (fun s => decide (s.dlenSel = 2#2 ∧ s.result = some (.ok (.status 0x1A#8)))) = true := by
  decide +kernel

/-- V43-9. -/
theorem test_set_datalen_invalid :
    gives (exec (.opSetDatalen 4) (start [])) (some (.err .invalidParameter)) = true := by
  decide +kernel

/-- P5: no hunting for a start marker, and the flush. -/
theorem test_gen_image_stale :
    next (exec .opGenImage { start [moves 12, ⟨ackOk, 12, false, false⟩, moves 0] with
        inq := [0x00, 0x0A, 0xEF] })
      (fun s => decide (s.result = some (.err .checksumMismatch) ∧ s.inq = [])) = true := by
  decide +kernel

/-- V43-4. -/
theorem test_gen_image :
    next (exec .opGenImage (start [moves 12,
        brings [0xEF, 0x01, 0xFF, 0xFF, 0xFF, 0xFF, 0x07, 0x00, 0x03, 0x02, 0x00, 0x0C]]))
      (fun s => decide (s.result = some (.ok (.status 2#8)) ∧
        s.out = [0xEF, 0x01, 0xFF, 0xFF, 0xFF, 0xFF, 0x01, 0x00, 0x03, 0x01, 0x00, 0x05])) = true := by
  decide +kernel

/-! ## Request frames and frames of the module -/

/-- R91: a request frame goes out to its own address, with the checksum of R85 whatever it carries. -/
theorem test_request_frame :
    next (exec (.readSysPara ⟨0x12#8, 0x34#8, 0x56#8, 0x78#8⟩ 0xAAAA#16)
      (start [moves 12, brings ackPara]))
      (fun s => decide (s.addr = ff ∧
        s.out = [0xEF, 0x01, 0x12, 0x34, 0x56, 0x78, 0x01, 0x00, 0x03, 0x0F, 0x00, 0x13])) = true := by
  decide +kernel

/-- R53: a damaged acknowledgement arrives as the bytes it is, behind what waits. -/
theorem test_ack_arrives :
    next (exec (.ackStatus ff 0#8 0x000B#16) { start [] with inq := [0xEF#8] })
      (fun s => decide (s.inq = 0xEF#8 :: ackBad ∧ s.result = none)) = true := by decide +kernel

/-- P3's good frame: a Data frame that arrives while the block streams is delivered. -/
theorem test_frame_data :
    next (exec (.frameData ff 34#16 (List.replicate 32 0xAB#8) 0x1584#16)
      (streaming [moves 43, moves 0]))
      (fun s => decide (s.rxcount = 32#32 ∧ s.fsm = .streamingFrames ∧ s.result = none ∧
        deliveriesOf s.calls = [(List.replicate 32 [0xA0#8, 0xB0#8]).flatten])) = true := by
  decide +kernel

/-- P3's damaged frame: 15 84 is not its sum. -/
theorem test_frame_data_damaged :
    next (exec (.frameData ff 34#16 (0xAA#8 :: List.replicate 31 0xAB#8) 0x1584#16)
      (streaming [moves 43, moves 0]))
      (fun s => decide (s.rxcount = 0#32 ∧ s.fsm = .idle ∧
        s.result = some (.err .checksumMismatch) ∧ deliveriesOf s.calls = [])) = true := by
  decide +kernel

/-- R227: the last frame is delivered too. -/
theorem test_frame_end :
    next (exec (.frameEnd ff 34#16 (List.replicate 32 0xAB#8) 0x158A#16)
      (streaming [moves 43, moves 0]))
      (fun s => decide (s.rxcount = 32#32 ∧ s.fsm = .idle ∧ s.result = some (.ok (.status 0#8)) ∧
        s.xlen = 64)) = true := by decide +kernel

/-- V45-8: an Acknowledge frame of a transfer frame's size (V41-9). -/
theorem test_frame_ack_while_streaming :
    next (exec (.frameAck ff 34#16 (ramp 32) 0x0219#16) (streaming [moves 43, moves 0]))
      (fun s => decide (s.fsm = .idle ∧ s.result = some (.err .kindMismatch) ∧
        s.rxcount = 0#32)) = true := by decide +kernel

/-- R191: the host cannot issue the upload-image request alone; while the upload awaits its acknowledgement
it is what that state sends (V45-4's frame). -/
theorem test_up_image :
    refuses (exec (.upImage ff 0x000E#16) (start [moves 12, brings ackOk])) .notIssuable = true ∧
    next (exec (.upImage ff 0x000E#16)
      ((streaming [moves 12, brings ackOk]).setFsm .awaitingGenerateAck))
      (fun s => decide (s.fsm = .streamingFrames ∧ s.result = none ∧
        s.out = [0xEF, 0x01, 0xFF, 0xFF, 0xFF, 0xFF, 0x01, 0x00, 0x03, 0x0A, 0x00, 0x0E])) = true := by
  decide +kernel

/-! ## Expander -/

/-- V44-1 and V44-3's `5A`. -/
theorem test_expand_byte :
    gives (exec (.opExpandByte 0xAB#8) (start [])) (some (.ok (.samples 0xA0#8 0xB0#8))) = true ∧
    gives (exec (.opExpandByte 0x5A#8) (start [])) (some (.ok (.samples 0x50#8 0xA0#8))) = true := by
  decide +kernel

/-- V44-4 and V44-7. -/
theorem test_expand :
    next (exec (.opExpand [0xAB#8, 0x0F#8, 0xF0#8, 0x00#8]) (start []))
      (fun s => decide (s.xlen = 8 ∧ s.xbuf.readBytes 0 8 =
        some [0xA0, 0xB0, 0x00, 0xF0, 0xF0, 0x00, 0x00, 0x00])) = true ∧
    refuses (exec (.opExpand (List.replicate 257 0#8)) (start [])) .rawTooLong = true := by
  decide +kernel

/-! ## Bulk transfer -/

/-- R220 and R190. -/
theorem test_register_consumer :
    next (exec (.opRegisterConsumer true) (start [])) (fun s => s.consumerValid) = true ∧
    next (exec (.opSetAddr ⟨1#8, 2#8, 3#8, 4#8⟩) (start []))
      (fun s => decide (s.addr = ⟨1#8, 2#8, 3#8, 4#8⟩)) = true := by decide +kernel

/-- V45-1 to V45-3. -/
theorem test_upload_rejected :
    gives (exec (.opUploadImage 0) (start [])) (some (.err .notReady)) = true ∧
    gives (exec (.opUploadImage 4) ((start []).setConsumerValid true))
      (some (.err .invalidParameter)) = true ∧
    gives (exec (.opUploadImage 7) (start [])) (some (.err .notReady)) = true := by decide +kernel

/-- V45-4's first transition: 64-byte packets. -/
theorem test_upload_opens :
    next (exec (.opUploadImage 1) ((start []).setConsumerValid true))
      (fun s => decide (s.sessionP = 64#9 ∧ s.fsm = .awaitingGenerateAck ∧ s.rxcount = 0#32 ∧
        s.calls = [])) = true := by decide +kernel

/-- V45-4's second: status 0F ends the upload with that status. -/
theorem test_upload_not_acknowledged :
    next (step ((streaming [moves 12,
        brings [0xEF, 0x01, 0xFF, 0xFF, 0xFF, 0xFF, 0x07, 0x00, 0x03, 0x0F, 0x00, 0x19]]).setFsm
        .awaitingGenerateAck))
      (fun s => decide (s.fsm = .idle ∧ s.result = some (.ok (.status 0x0F#8)) ∧
        s.out = [0xEF, 0x01, 0xFF, 0xFF, 0xFF, 0xFF, 0x01, 0x00, 0x03, 0x0A, 0x00, 0x0E])) = true := by
  decide +kernel

/-- V45-6's count, read back. -/
theorem test_read_rxcount :
    gives (exec .opReadRxcount { start [] with rxcount := 32#32 }) (some (.ok (.rxcount 32#32))) = true ∧
    refuses (exec .opReadRxcount (streaming [])) .busy = true := by decide +kernel

/-! ## Reset and the step -/

/-- R40 under P0. -/
theorem test_reset_values :
    State.reset.addr = ff ∧ State.reset.dlenSel = 2#2 ∧ State.reset.baudSel = 6#4 ∧
    State.reset.consumerValid = false ∧ State.reset.fsm = .idle ∧ State.reset.rxcount = 0#32 := by
  decide +kernel

/-- R290: a reset inside the read of an upload. -/
theorem test_reset_inside_a_call :
    next (step (streaming [resets]))
      (fun s => decide (s.fsm = .idle ∧ s.consumerValid = false ∧ s.sessionP = 0#9 ∧
        s.result = none)) = true := by decide +kernel

/-- A word presented right after reset runs: V43-8's acknowledgement arrives in `IN`. -/
theorem test_word_after_reset :
    next (step (State.reset.withFetchWord 96 0x24001A030007FFFFFFFF01EF))
      (fun s => decide (s.inq =
        [0xEF, 0x01, 0xFF, 0xFF, 0xFF, 0xFF, 0x07, 0x00, 0x03, 0x1A, 0x00, 0x24])) = true := by
  decide +kernel

/-! ## Witnesses -/

/-- The next state of an outcome. -/
def after (o : Host.Outcome State Fault Refusal) : State :=
  match o with
  | .next s => s
  | .fault _ => start []
  | .refused _ => start []

/-- V40-6: the smallest frame. -/
def endEmpty : List Byte :=
  [0xEF, 0x01, 0xFF, 0xFF, 0xFF, 0xFF, 0x08, 0x00, 0x02, 0x00, 0x0A]

theorem witness_ChecksumIsSumOfCoveredBytes :
    0 = ([] : List Byte).length ∧ 65533 = (List.replicate 65533 0xFF#8).length ∧ 65533 ≤ 65533 :=
  ⟨rfl, List.length_replicate.symm, Nat.le_refl _⟩

theorem witness_EncodeWritesTheFrame :
    (start []).fsm = .idle ∧ (List.replicate 256 0xFF#8).length ≤ (start []).params.maxPayload ∧
    (List.replicate 256 0xFF#8).length ≤ 65533 := by decide +kernel

theorem witness_EncodeRefusesWhatDoesNotFit :
    (start []).fsm = .idle ∧
    (start []).params.maxPayload < (List.replicate 257 0xFF#8).length := by decide +kernel

theorem witness_EncodedLengthInvariant :
    ([] : List Byte).length ≤ 65533 ∧ (List.replicate 65533 0xFF#8).length ≤ 65533 :=
  ⟨Nat.zero_le _, Nat.le_of_eq List.length_replicate⟩

theorem witness_DecodeRecoversEncodedFrame :
    (start []).params.ok = true ∧ (start []).fsm = .idle ∧
    (List.replicate 256 0xFF#8).length ≤ (start []).params.maxPayload := by decide +kernel

theorem witness_DecodeSplitsTheBuffer :
    (start []).fsm = .idle ∧ 11 ≤ endEmpty.length ∧ (endEmpty.drop 1).length < 11 := by
  decide +kernel

theorem witness_VerifyChecksumComparesTheSum :
    (start []).fsm = .idle ∧ 11 ≤ endEmpty.length ∧ (endEmpty.drop 1).length < 11 := by
  decide +kernel

theorem witness_SingleBitFlipIsDetected :
    11 ≤ endEmpty.length ∧ verifyChecksum endEmpty = true ∧
    (6 ≤ 6 ∧ 6 < endEmpty.length ∧ 7 < 8) ∧ (6 ≤ 10 ∧ 10 < endEmpty.length ∧ 0 < 8) ∧ 5 < 6 := by
  decide +kernel

theorem witness_ExchangedBytesAreNotDetected :
    11 ≤ endEmpty.length ∧ 6 ≤ 6 ∧ 6 < endEmpty.length - 2 ∧ 6 ≤ 8 ∧ 8 < endEmpty.length - 2 := by
  decide +kernel

/-- One buffer of the smallest size for each of the five clauses, and one a byte short. -/
theorem witness_ValidateReportsFirstFailure :
    let s := start []
    let clause := fun (buf : List Byte) (a b c d : Bool) =>
      let at' := fun i => buf.getD i 0#8
      decide (9 ≤ buf.length ∧
        (at' 0 = s.params.start0 ∧ at' 1 = s.params.start1 ↔ a = true) ∧
        (at' 2 = s.addr.b0 ∧ at' 3 = s.addr.b1 ∧ at' 4 = s.addr.b2 ∧ at' 5 = s.addr.b3 ↔ b = true) ∧
        ((∃ k ∈ [Kind.data, .endOfData], at' 6 = kindByte s.params k) ↔ c = true) ∧
        ((at' 7).toNat * 256 + (at' 8).toNat = 34 ↔ d = true))
    s.params.ok = true ∧ s.fsm = .idle ∧
    clause (0xEE#8 :: (dataAB.take 9).drop 1) false true true true = true ∧
    clause [0xEF, 0x01, 0xFF, 0xFF, 0xFF, 0xFE, 0x02, 0x00, 0x22] true false true true = true ∧
    clause [0xEF, 0x01, 0xFF, 0xFF, 0xFF, 0xFF, 0x07, 0x00, 0x22] true true false true = true ∧
    clause [0xEF, 0x01, 0xFF, 0xFF, 0xFF, 0xFF, 0x02, 0x00, 0x21] true true true false = true ∧
    clause (endAB.take 9) true true true true = true ∧
    (dataAB.take 8).length < 9 := by decide +kernel

theorem witness_TransportWriteAppendsPrefix :
    ((start [moves 5]).choiceAt 0).reset = false ∧ ((start [fails]).choiceAt 0).reset = false ∧
    ((start [resets]).choiceAt 0).reset = true := by
  decide +kernel

theorem witness_TransportReadTakesFront :
    ((start [brings ackOk]).choiceAt 0).reset = false ∧ ((start [fails]).choiceAt 0).reset = false ∧
    ((start [resets]).choiceAt 0).reset = true := by
  decide +kernel

theorem witness_TransportFlushEmptiesIn :
    ((start [brings ackOk]).choiceAt 0).reset = false ∧ ((start [resets]).choiceAt 0).reset = true := by
  decide +kernel

theorem witness_ReconfigureSetsTheSpeed :
    (((start [moves 0]).choiceAt 0).reset = false ∧ ((start [moves 0]).choiceAt 0).error = false) ∧
    (((start [fails]).choiceAt 0).reset = false ∧ ((start [fails]).choiceAt 0).error = true) ∧
    ((start [resets]).choiceAt 0).reset = true ∧
    (1 = 1 ∨ 1 = 2 ∨ 1 = 4 ∨ 1 = 6 ∨ 1 = 12) ∧
    (12 = 1 ∨ 12 = 2 ∨ 12 = 4 ∨ 12 = 6 ∨ 12 = 12) := by decide +kernel

/-- All of the frame, an `Error`, and all but the last byte. -/
theorem witness_SendFrameOutcomes :
    let c := fun e => (start [e]).choiceAt 0
    let frame := encodeFrame binding .command (List.replicate 256 0#8) ff
    (List.replicate 256 0#8).length ≤ binding.maxPayload ∧
    ((c (moves 267)).reset = false ∧ (c (moves 267)).error = false ∧
      min (c (moves 267)).count frame.length = frame.length) ∧
    ((c fails).reset = false ∧ (c fails).error = true) ∧
    ((c (moves 266)).reset = false ∧ (c (moves 266)).error = false ∧
      min (c (moves 266)).count frame.length < frame.length) := by decide +kernel

/-- The smallest and the largest expected length, and an environment for each clause. -/
theorem witness_RecvFrameOutcomes :
    let s := fun e => start [e, moves 0]
    let c := fun e => (s e).choiceAt 0
    let b := fun e => ((s e).inq ++ (c e).arrived).take (min (c e).count 12)
    binding.ok = true ∧ (2 ≤ 2 ∧ 2 ≤ 258) ∧ (2 ≤ 258 ∧ 258 ≤ 258) ∧ (2 ≤ 3 ∧ 3 ≤ 258) ∧
    ((c fails).reset = false ∧ (c fails).error = true) ∧ (c resets).reset = true ∧
    (c (moves 12)).reset = false ∧ (c (brings ackOk)).reset = false ∧
    ((c (moves 12)).error = false ∧ (b (moves 12)).length = 0) ∧
    (0 < (b (brings (ackOk.take 11))).length ∧ (b (brings (ackOk.take 11))).length < 12) ∧
    ((b (brings ackBad)).length = 12 ∧ verifyChecksum (b (brings ackBad)) = false) ∧
    ((b (brings ackOk)).length = 12 ∧ verifyChecksum (b (brings ackOk)) = true ∧
      validateHeader binding ff (b (brings ackOk)) [.data] 3 = some .kindMismatch) ∧
    validateHeader binding ff (b (brings ackOk)) [.acknowledge] 3 = none := by decide +kernel

/-- The same statement's clause for an expected length outside 2 to 258, on both sides of the domain; the
longer frame passes the header check and the shorter fails it. -/
theorem witness_RecvFrameOutcomes_unsized :
    let frame := [0xEF, 0x01, 0xFF, 0xFF, 0xFF, 0xFF, 0x07, 0x01, 0x03] ++ List.replicate 259 0#8
    let c := fun bs => (start [brings bs, moves 0]).choiceAt 0
    let b := fun (bs : List Byte) n => ([] ++ (c bs).arrived).take (min (c bs).count n)
    ¬ (2 ≤ 1 ∧ 1 ≤ 258) ∧ ¬ (2 ≤ 259 ∧ 259 ≤ 258) ∧
    ((c ackOk).reset = false ∧ (c ackOk).error = false ∧ (b ackOk 10).length = 9 + 1 ∧
      validateHeader binding ff (b ackOk 10) [.acknowledge] 1 = some .lengthMismatch) ∧
    ((c frame).reset = false ∧ (c frame).error = false ∧ (b frame 268).length = 9 + 259 ∧
      validateHeader binding ff (b frame 268) [.acknowledge] 259 = none) := by decide +kernel

/-- A write that fails, a good answer, and a damaged one. -/
theorem witness_ExchangeIsOneSendAndOneReceive :
    let payload := List.replicate 256 0#8
    let u := fun env => after (exec (.opSendFrame .command payload) (start env))
    let v := fun env => after
      (exec (.opRecvFrame [.acknowledge] (ackLen binding .genImage + 2) (Config.timeout .genImage))
        (u env))
    binding.ok = true ∧ payload.length ≤ binding.maxPayload ∧
    (u [fails]).result = some (.err .writeFailure) ∧
    (u [moves 267, brings ackOk]).result = some (.ok .done) ∧
    (v [moves 267, brings ackOk]).result = some (.ok (.frame .acknowledge [0#8])) ∧
    (v [moves 267, brings ackBad, moves 0]).result = some (.err .checksumMismatch) := by
  decide +kernel

theorem witness_ExchangeReturnsStatusAndFields :
    binding.ok = true ∧ (List.replicate 256 0#8).length ≤ binding.maxPayload ∧
    ([0#8, 5#8] : List Byte).length + 1 = ackLen binding .templateNum ∧
    (start [moves 267, brings ackCount]).answered ((List.replicate 256 0#8).length + 11)
      ((start []).ackFrame [0#8, 0#8, 5#8]) = true := by decide +kernel

/-- Both ends of the legal levels and the nearest illegal ones; an exchange that returns a status and one
that does not. -/
theorem witness_StatusCommandsAreTheirExchange :
    let u := fun env op payload => after (exec (.opExchange op payload) (start env))
    binding.ok = true ∧ (start []).fsm = .idle ∧ 5 ≤ binding.maxPayload ∧
    (1 ≤ 1 ∧ 1 ≤ 5) ∧ (1 ≤ 5 ∧ 5 ≤ 5) ∧ (0 < 1 ∨ 5 < 0) ∧ (6 < 1 ∨ 5 < 6) ∧
    (u [moves 16, brings ack13] .vfyPwd [0x13#8, 0#8, 0#8, 0#8, 1#8]).result =
      some (.ok (.exchanged 0x13#8 [])) ∧
    (u [fails] .genImage [0x01#8]).result = some (.err .writeFailure) ∧
    (u [moves 14, brings ackOk] .setSecurity [0x0E#8, 0x05#8, 5#8]).result =
      some (.ok (.exchanged 0#8 [])) := by decide +kernel

theorem witness_StatusCommandsWriteBuffersOnly :
    let good := fun op n =>
      ([] : List Byte).length + 1 = ackLen binding op ∧
      (start [moves n, brings ack13]).answered n ((start []).ackFrame [0x13#8]) = true
    binding.ok = true ∧ (start []).fsm = .idle ∧ 5 ≤ binding.maxPayload ∧
    good .vfyPwd 16 ∧ good .genImage 12 ∧ good .setSecurity 14 ∧
    (1 ≤ (1#8).toNat ∧ (1#8).toNat ≤ 5) ∧ (1 ≤ (5#8).toNat ∧ (5#8).toNat ≤ 5) := by decide +kernel

theorem witness_ReadSysParaReturnsSnapshot :
    binding.ok = true ∧ (start []).fsm = .idle ∧ 1 ≤ binding.maxPayload ∧
    ((ackPara.drop 10).take 16).length = 16 ∧
    (start [moves 12, brings ackPara]).answered 12
      ((start []).ackFrame (0#8 :: (ackPara.drop 10).take 16)) = true := by decide +kernel

theorem witness_TemplateNumReturnsCount :
    binding.ok = true ∧ (start []).fsm = .idle ∧ 1 ≤ binding.maxPayload ∧
    ([] : List Byte).length + 3 = binding.ackTemplateNum ∧
    (start [moves 12, brings ackCount]).answered 12
      ((start []).ackFrame [0#8, 0#8, 5#8]) = true := by decide +kernel

/-- A success status and a reconfiguration that is done; another status. -/
theorem witness_SetBaudSwitchesAfterAcknowledgement :
    let ok := start [moves 14, brings ackOk, moves 0]
    let other := start [moves 14, brings ack13]
    ok.params.ok = true ∧ ok.fsm = .idle ∧ 3 ≤ ok.params.maxPayload ∧
    ([] : List Byte).length + 1 = ok.params.ackSetSysPara ∧
    ok.answered 14 (ok.ackFrame [0#8]) = true ∧ 0#8 = ok.params.stSuccess ∧
    (ok.choiceAt 2).error = false ∧ (ok.choiceAt 2).reset = false ∧
    other.answered 14 (other.ackFrame [0x13#8]) = true ∧ 0x13#8 ≠ other.params.stSuccess := by
  decide +kernel

/-- A success status with a reconfiguration that is done, that fails, and that a reset ends; another
status; and no answer. -/
theorem witness_SetBaudFollowsItsExchange :
    let u := fun env =>
      after (exec (.opExchange .setBaud [0x0E#8, 0x04#8, 12#8]) (start env))
    let v := fun env =>
      after (exec (.opTReconfigureSpeed 12) { u env with baudSel := BitVec.ofNat 4 12 })
    binding.ok = true ∧ (start []).fsm = .idle ∧ 3 ≤ binding.maxPayload ∧
    (u [moves 14, brings ackOk]).result = some (.ok (.exchanged binding.stSuccess [])) ∧
    (v [moves 14, brings ackOk, moves 0]).result = some (.ok .done) ∧
    (v [moves 14, brings ackOk, fails]).result = some (.ok .transportError) ∧
    (v [moves 14, brings ackOk, resets]).result = none ∧
    (u [moves 14, brings ack13]).result = some (.ok (.exchanged 0x13#8 [])) ∧
    0x13#8 ≠ binding.stSuccess ∧
    (u [moves 14, moves 12]).result = some (.err .notFound) := by decide +kernel

theorem witness_SetDatalenFollowsItsExchange :
    let u := fun env =>
      after (exec (.opExchange .setDatalen [0x0E#8, 0x06#8, 3#8]) (start env))
    binding.ok = true ∧ (start []).fsm = .idle ∧ 3 ≤ binding.maxPayload ∧ 3 ≤ 3 ∧ 3 < 4 ∧
    (u [moves 14, brings ackOk]).result = some (.ok (.exchanged 0#8 [])) ∧
    (u [moves 14, brings ack13]).result = some (.ok (.exchanged 0x13#8 [])) ∧
    (u [moves 14, moves 12]).result = some (.err .notFound) ∧
    (u [moves 14, resets]).result = none := by decide +kernel

theorem witness_SetDatalenRecordsSelector :
    let s := start [moves 14, brings ackOk]
    s.params.ok = true ∧ s.fsm = .idle ∧ 3 ≤ s.params.maxPayload ∧ (3#8).toNat ≤ 3 ∧
    ([] : List Byte).length + 1 = s.params.ackSetSysPara ∧
    s.answered 14 (s.ackFrame [0#8]) = true := by decide +kernel

theorem witness_SetAddrWritesAddrOnly : (start []).fsm = .idle := by decide +kernel

/-- For each clause the nearest values outside the legal set. -/
theorem witness_RejectedBeforeAnyTransportCall :
    (start []).fsm = .idle ∧
    ¬ (0 = 1 ∨ 0 = 2 ∨ 0 = 4 ∨ 0 = 6 ∨ 0 = 12) ∧ ¬ (13 = 1 ∨ 13 = 2 ∨ 13 = 4 ∨ 13 = 6 ∨ 13 = 12) ∧
    (0 < 1 ∨ 5 < 0) ∧ (6 < 1 ∨ 5 < 6) ∧ 3 < 4 ∧
    ¬ (5#8 = 1#8 ∨ 5#8 = 2#8 ∨ 5#8 = 4#8 ∨ 5#8 = 6#8 ∨ 5#8 = 12#8) ∧
    ((6#8).toNat < 1 ∨ 5 < (6#8).toNat) ∧ 3 < (4#8).toNat ∧
    ((start []).setConsumerValid true).consumerValid = true ∧ (start []).consumerValid = false := by
  decide +kernel

theorem witness_UpImageRequestIsOneExchange :
    let s := fun ack => (start [moves 12, brings ack]).setFsm .awaitingGenerateAck
    (start []).fsm = .idle ∧ (streaming []).fsm = .streamingFrames ∧
    (s ackOk).fsm = .awaitingGenerateAck ∧ binding.ok = true ∧ 1 ≤ binding.maxPayload ∧
    ([] : List Byte).length + 1 = binding.ackUpImage ∧
    ((s ackOk).answered 12 ((s ackOk).ackFrame [0#8]) = true ∧ 0#8 = binding.stSuccess) ∧
    ((s ack13).answered 12 ((s ack13).ackFrame [0x13#8]) = true ∧ 0x13#8 ≠ binding.stSuccess) := by
  decide +kernel

theorem witness_CommandFrameIsSent :
    (start [moves 267]).fsm = .idle ∧ (List.replicate 256 0#8).length ≤ binding.maxPayload ∧
    (List.replicate 256 0#8).length ≤ 65533 ∧
    ((start [moves 267]).choiceAt 0).passes ((List.replicate 256 0#8).length + 11) = true := by
  decide +kernel

theorem witness_ModuleFramesArriveInOrder : (start []).fsm = .idle := by decide +kernel

theorem witness_TransferFrameIsDelivered :
    let s := streaming [moves 43, moves 0]
    let raw := List.replicate 32 0xAB#8
    s.params.ok = true ∧ s.fsm = .streamingFrames ∧ legalSession s.sessionP.toNat = true ∧
    raw.length = s.sessionP.toNat ∧ (s.choiceAt 1).reset = false ∧
    State.brings { s with inq := s.inq ++ dataAB } 0 (encodeFrame s.params .data raw s.addr) = true ∧
    State.brings { s with inq := s.inq ++ endAB } 0
      (encodeFrame s.params .endOfData raw s.addr) = true := by decide +kernel

theorem witness_ExpandFillsXbuf :
    (start []).fsm = .idle ∧ ([] : List Byte).length ≤ 256 ∧
    (List.replicate 256 0xAB#8).length ≤ 256 ∧ 256 < (List.replicate 257 0xAB#8).length := by
  decide +kernel

theorem witness_RegisterConsumerWritesTheFlag : (start []).fsm = .idle := by decide +kernel

theorem witness_UploadOpensTheSession :
    let s := (start []).setConsumerValid true
    s.fsm = .idle ∧ s.consumerValid = true ∧ 0 ≤ 3 ∧ 3 ≤ 3 := by decide +kernel

/-- A success status, another status, an error, and a reset. -/
theorem witness_AwaitingPerformsTheExchange :
    let s := fun env => (streaming env).setFsm .awaitingGenerateAck
    let r := fun env => (after (exec (.opExchange .upImage [0x0A#8]) (s env))).result
    (s []).params.ok = true ∧ (s []).fsm = .awaitingGenerateAck ∧ 1 ≤ (s []).params.maxPayload ∧
    (s []).inputs = [] ∧
    r [moves 12, brings ackOk] = some (.ok (.exchanged binding.stSuccess [])) ∧
    r [moves 12, brings ack13] = some (.ok (.exchanged 0x13#8 [])) ∧
    r [moves 12, moves 12] = some (.err .notFound) ∧ r [resets] = none := by decide +kernel

/-- A Data frame, an EndOfData frame, an error, and a reset; and a delivery without and with a reset. -/
theorem witness_StreamingFollowsItsReception :
    let r := fun env => after (exec
      (.opRecvFrame [.data, .endOfData] (32 + 2) Config.timeoutStream) (streaming env))
    binding.ok = true ∧ (streaming []).fsm = .streamingFrames ∧
    legalSession (streaming []).sessionP.toNat = true ∧ (streaming []).inputs = [] ∧
    (r [brings dataAB, moves 0]).result = some (.ok (.frame .data (List.replicate 32 0xAB#8))) ∧
    (r [brings endAB, moves 0]).result = some (.ok (.frame .endOfData (List.replicate 32 0xAB#8))) ∧
    ((r [brings dataAB, moves 0]).choiceAt 0).reset = false ∧
    (r [brings dataAB, resets]).result = some (.ok (.frame .data (List.replicate 32 0xAB#8))) ∧
    ((r [brings dataAB, resets]).choiceAt 0).reset = true ∧
    (r [moves 43, moves 0]).result = some (.err .notFound) ∧ (r [resets]).result = none := by
  decide +kernel

theorem witness_ReadRxcountReturnsTheCount : (start []).fsm = .idle := by decide +kernel

/-- Program P2's upload cut to one Data frame and one EndOfData frame (the frames of V40-8). -/
theorem witness_WholeUploadDeliversTheImage :
    let raw := List.replicate 32 0xAB#8
    let s : State := { start ([moves 12, ⟨ackOk, 267, false, false⟩]
        ++ [⟨dataAB, 267, false, false⟩, moves 0] ++ [⟨endAB, 267, false, false⟩, moves 0]) with
      consumerValid := true, inputs := [.issue (.opUploadImage 0)] }
    s.params.ok = true ∧ 1 ≤ s.params.maxPayload ∧ s.fsm = .idle ∧ s.consumerValid = true ∧
    0 ≤ 3 ∧ ([] : List Byte).length + 1 = s.params.ackUpImage ∧
    (∀ r ∈ [raw], r.length = 32 * 2 ^ 0) ∧ raw.length = 32 * 2 ^ 0 ∧
    s.inq = [] ∧ s.inputs = [.issue (.opUploadImage 0)] ∧
    s.env =
      [⟨[], 12, false, false⟩, ⟨s.ackFrame (s.params.stSuccess :: []), 267, false, false⟩]
      ++ [raw].flatMap (fun raw =>
        [⟨encodeFrame s.params .data raw s.addr, 267, false, false⟩, ⟨[], 0, false, false⟩])
      ++ [⟨encodeFrame s.params .endOfData raw s.addr, 267, false, false⟩,
        ⟨[], 0, false, false⟩] := by decide +kernel

/-- A check error, a transport error with the parameter set and with it clear, and an input error. -/
theorem witness_AbortActionFlushesByCategory :
    let check := [ErrorKind.checksumMismatch, .startMismatch, .addressMismatch, .kindMismatch,
      .lengthMismatch]
    let transport := [ErrorKind.writeFailure, .partialWrite, .readFailure, .notFound, .shortRead,
      .reconfigureFailure]
    let flush := fun (p : Params) (e : ErrorKind) =>
      e ∈ check ∨ (p.flushOnTransportError = true ∧ e ∈ transport)
    let p := { binding with flushOnTransportError := true }
    (∀ e ∈ check, flush binding e) ∧ (∀ e ∈ transport, flush p e) ∧
    (∀ e ∈ transport, ¬ flush binding e) ∧ ¬ flush p .invalidParameter ∧ ¬ flush p .notReady ∧
    ((start [moves 0]).choiceAt 0).reset = false := by decide +kernel

theorem witness_BusyBlockTakesNoHostOperation :
    let s := fun i => { streaming [] with inputs := [.issue i] }
    let a := fun i => (s i).setFsm .awaitingGenerateAck
    ((s .opGenImage).fsm ≠ .idle ∧ (s .opGenImage).inputs = .issue .opGenImage :: []) ∧
    ((a .opGenImage).fsm ≠ .idle ∧ (a .opGenImage).inputs = .issue .opGenImage :: []) ∧
    ((s (.upImage ff 0x000E#16)).fsm = .streamingFrames ∧
      (s (.upImage ff 0x000E#16)).inputs = .issue (.upImage ff 0x000E#16) :: []) ∧
    decode (streaming []).params
        [0xEF, 0x01, 0xFF, 0xFF, 0xFF, 0xFF, 0x01, 0x00, 0x03, 0x01, 0x00, 0x05] =
      .ok (.genImage ff 0x0005#16) := by decide +kernel

/-- Each command of the statement, as operation and as request frame, in an environment without a reset. -/
theorem witness_CommandsLeaveOtherStateAlone :
    let s := fun n ack => start [moves n, brings ack, moves 0, moves 0]
    let runs := fun i n ack => next (exec i (s n ack)) (fun _ => true)
    (s 12 ackOk).noReset 4 = true ∧
    runs (.opVfyPwd ff) 16 ackOk = true ∧ runs (.vfyPwd ff ff 0#16) 16 ackOk = true ∧
    runs .opReadSysPara 12 ackPara = true ∧ runs (.readSysPara ff 0#16) 12 ackPara = true ∧
    runs .opTemplateNum 12 ackCount = true ∧ runs (.templateNum ff 0#16) 12 ackCount = true ∧
    runs (.opSetSecurity 1) 14 ackOk = true ∧ runs (.setSecurity ff 5#8 0#16) 14 ackOk = true ∧
    runs (.opSetBaud 1) 14 ackOk = true ∧ runs (.setBaud ff 12#8 0#16) 14 ackOk = true ∧
    runs (.opSetDatalen 0) 14 ackOk = true ∧ runs (.setDatalen ff 3#8 0#16) 14 ackOk = true ∧
    runs .opGenImage 12 ackOk = true ∧ runs (.genImage ff 0#16) 12 ackOk = true := by decide +kernel

theorem witness_ResetEventLandsInAnyState :
    let s := { streaming [] with inputs := [.reset] }
    s.fsm = .streamingFrames ∧ s.inputs = .reset :: [] := by decide +kernel

theorem witness_StepRunsTheDecodedInstruction :
    let i := Instr.ackStatus ff 0#8 0x000A#16
    let up := Instr.upImage ff 0x000E#16
    let issued := { start [] with inputs := [.issue i] }
    let coded := { start [] with inputs := [.code ackOk] }
    let awaiting := { (streaming []).setFsm .awaitingGenerateAck with inputs := [.issue up] }
    ((start []).fsm = .idle ∧ i.fromModule = true) ∧ issued.inputs = .issue i :: [] ∧
    coded.inputs = .code ackOk :: [] ∧ decode coded.params ackOk = .ok i ∧
    (awaiting.fsm = .awaitingGenerateAck ∧ awaiting.inputs = .issue up :: []) ∧
    decode (start []).params (layoutWord 96 0x0A0000030007FFFFFFFF01EF) = .ok i ∧
    decode (start []).params (layoutWord 96 0x0E000A030001FFFFFFFF01EF) = .ok up ∧
    Instr.opTFlush.fromModule = false := by decide +kernel

theorem witness_IdleBlockWaits : (start []).fsm = .idle ∧ (start []).inputs = [] := by
  decide +kernel

/-- A well-formed frame of each of the fifteen rows that have an encoding. -/
theorem witness_DecodeUndoesEncode :
    binding.ok = true ∧ binding.codesDistinct = true ∧
    [Instr.frameCommand ff 4#16 [0x0F#8, 0#8] 0x0014#16,
     .frameData ff 34#16 (List.replicate 32 0xAB#8) 0x1584#16,
     .frameAck ff 4#16 [0#8, 5#8] 0x0010#16, .frameEnd ff 2#16 [] 0x000A#16,
     .vfyPwd ff ⟨0#8, 0#8, 0#8, 1#8⟩ 0x001C#16, .readSysPara ff 0x0013#16,
     .templateNum ff 0x0021#16, .setBaud ff 0x0C#8 0x0024#16, .setSecurity ff 3#8 0x001C#16,
     .setDatalen ff 3#8 0x001D#16, .genImage ff 0x0005#16, .upImage ff 0x000E#16,
     .ackStatus ff 0x1A#8 0x0024#16, .ackTemplateNum ff 0#8 5#16 0x0011#16,
     .ackSysPara ff 0#8 ⟨0#16, 0#16, 200#16, 3#16, ff, 2#16, 6#16⟩ 0x04E9#16].all
      (fun i => wellFormed binding i && (encode binding i).isSome) = true := by decide +kernel

theorem witness_EncodeUndoesDecode :
    decode binding ackOk = .ok (.ackStatus ff 0#8 0x000A#16) ∧
    decode binding ackBad = .ok (.ackStatus ff 0#8 0x000B#16) := by decide +kernel

/-- The state after reset meets the invariant: the proof follows the definition. -/
theorem start_inv : (start []).Inv where
  binding := by decide +kernel
  baud := by decide +kernel
  session := fun h => absurd rfl h
  tx := ⟨rfl, fun i h => absurd h (Nat.not_lt_zero i), fun _ _ => rfl, Nat.zero_le _⟩
  rx := ⟨rfl, fun i h => absurd h (Nat.not_lt_zero i), fun _ _ => rfl, Nat.zero_le _⟩
  x := ⟨rfl, fun i h => absurd h (Nat.not_lt_zero i), fun _ _ => rfl, Nat.zero_le _⟩

/-- The same while frames stream, where the invariant says more. -/
theorem streaming_inv (env : List EnvChoice) : (streaming env).Inv where
  binding := start_inv.binding
  baud := start_inv.baud
  session := fun _ => ⟨rfl, rfl⟩
  tx := start_inv.tx
  rx := start_inv.rx
  x := start_inv.x

theorem witness_StepKeepsTheInvariant :
    ((start []).Inv ∧ step (start []) = .next (start [])) ∧
    ((streaming [brings dataAB, moves 0]).Inv ∧
      next (step (streaming [brings dataAB, moves 0])) (fun s => decide (s.rxcount = 32#32)) = true) :=
  ⟨⟨start_inv, rfl⟩, streaming_inv _, by decide +kernel⟩

theorem witness_ResetMeetsTheInvariant : Params.p0.ok = true := by decide +kernel

theorem witness_OutOnlyGrows :
    step (start []) = .next (start []) ∧
    next (step (streaming [resets])) (fun s => decide (s.out = [])) = true :=
  ⟨rfl, by decide +kernel⟩

/-- An exchange that returns a status and one that does not, for each of the two commands. -/
theorem witness_SnapshotCommandsFollowTheirExchange :
    let r := fun env op payload => (after (exec (.opExchange op payload) (start env))).result
    binding.ok = true ∧ (start []).fsm = .idle ∧ 1 ≤ binding.maxPayload ∧
    r [moves 12, brings ackPara] .readSysPara [0x0F#8] =
      some (.ok (.exchanged 0#8 ((ackPara.drop 10).take 16))) ∧
    r [moves 12, moves 28] .readSysPara [0x0F#8] = some (.err .notFound) ∧
    r [moves 12, brings ackCount] .templateNum [0x1D#8] =
      some (.ok (.exchanged 0#8 [0#8, 5#8])) ∧
    r [fails] .templateNum [0x1D#8] = some (.err .writeFailure) := by decide +kernel

theorem witness_RequestRowsRunAsTheirOperations : (start []).fsm = .idle := by decide +kernel

theorem witness_ResetInsideSendOrFlush :
    ((start [resets]).choiceAt 0).reset = true ∧
    (List.replicate 256 0#8).length ≤ binding.maxPayload ∧ (List.replicate 256 0#8).length ≤ 65533 ∧
    flushes binding .checksumMismatch = true := by decide +kernel

end Sys2Proof.Tests
end

section
/-! PROOFS. The frame codec (spec/40_frame_codec.md). -/

namespace Sys2Proof.Machine

/-- R120 in plain arithmetic, for a payload whose length field holds its size. -/
theorem checksum_toNat (p : Params) (kind : Kind) (payload : List Byte)
    (h : payload.length ≤ maxLength16) :
    (checksum p kind payload.length payload).toNat =
      ((kindByte p kind).toNat + (payload.length + 2) / 256 + (payload.length + 2) % 256
        + (payload.map BitVec.toNat).sum) % 65536 := by
  rw [checksum, BitVec.toNat_ofNat, hiByte_toNat, loByte_toNat, lengthField_toNat _ h,
    sumBytes_eq_sum]

/-- The frame of R80 byte by byte, its length bytes in plain arithmetic. -/
theorem encodeFrame_eq (p : Params) (kind : Kind) (payload : List Byte) (a : Bytes4)
    (h : payload.length ≤ maxLength16) :
    let c := checksum p kind payload.length payload
    encodeFrame p kind payload a =
      [p.start0, p.start1, a.b0, a.b1, a.b2, a.b3, kindByte p kind,
          BitVec.ofNat 8 ((payload.length + 2) / 256), BitVec.ofNat 8 ((payload.length + 2) % 256)]
        ++ payload ++ [BitVec.ofNat 8 (c.toNat / 256), BitVec.ofNat 8 (c.toNat % 256)] := by
  simp [encodeFrame, joinFrame_eq, hiByte_eq, loByte_eq, lengthField_toNat _ h]

/-- ENCODE of a payload that fits fills `TXBUF` with the frame, returns it, and does nothing else (R123). -/
theorem exec_opEncode_fits (kind : Kind) (payload : List Byte) (a : Bytes4) (s : State)
    (hidle : s.fsm = .idle) (hfits : s.fits payload) :
    let frame := encodeFrame s.params kind payload a
    exec (.opEncode kind payload a) s =
      .next ((s.fillTx frame).setResult (some (.ok (.bytes frame)))) := by
  change execOpEncode kind payload a s = _
  rw [execOpEncode, whenIdle_idle _ _ hidle, encodeTx_fits kind payload a s hfits,
    Res.andThen_ok, finish_ok]

/-- `TXBUF` reads as the bytes it was filled with. -/
theorem State.fillTx_read_of_lt (s : State) (bs : List Byte) (i : Nat) (h : i < bs.length) :
    (s.fillTx bs).txbuf.read i = bs[i]? := by
  rw [fillTx_txbuf, Memory.read_writeBytes, if_pos (by omega), Nat.sub_zero]

/-- `TXBUF` above the bytes it was filled with reads as before. -/
theorem State.fillTx_read_of_le (s : State) (bs : List Byte) (i : Nat) (h : bs.length ≤ i) :
    (s.fillTx bs).txbuf.read i = s.txbuf.read i := by
  rw [fillTx_txbuf, Memory.read_writeBytes, if_neg (by omega)]

/-- Settles O2: the state ENCODE leaves is `fillTx` of the encoded frame with that frame as the result. -/
theorem encodeWritesTheFrame : Obligations.EncodeWritesTheFrame := by
  unfold Obligations.EncodeWritesTheFrame
  intro s kind payload a hidle hmax h16
  have hlen := encodeFrame_length s.params kind payload a
  refine ⟨checksum s.params kind payload.length payload, encodeFrame s.params kind payload a, _,
    checksum_toNat s.params kind payload h16, encodeFrame_eq s.params kind payload a h16,
    exec_opEncode_fits kind payload a s hidle ⟨hmax, h16⟩, rfl, hlen, ?inside, ?above, rfl⟩
  case inside => exact fun i hi => s.fillTx_read_of_lt _ i (hlen ▸ hi)
  case above => exact fun i hi => s.fillTx_read_of_le _ i (hlen ▸ hi)

end Sys2Proof.Machine
end

section
/-! PROOFS. The commands (spec/43_commands.md). -/

namespace Sys2Proof.Machine

/-- Every operation that begins with an exchange to `ADDR` splits as OP.EXCHANGE does: it goes on where
OP.EXCHANGE returns a status, and ends in the very state OP.EXCHANGE leaves where it returns none, because an
error was taken or a reset landed (R157, R263). -/
theorem exec_opExchange_cases (op : CmdOp) (payload : List Byte) (s : State)
    (hp : s.params.ok = true) (hm : payload.length ≤ s.params.maxPayload) :
    (∃ st f u, exchangeTo s.addr op payload s = .ok (st, f) u ∧
      exec (.opExchange op payload) s = .next (u.setResult (some (.ok (.exchanged st f))))) ∨
    (∃ u, (∀ st f, u.result ≠ some (.ok (.exchanged st f))) ∧
      exec (.opExchange op payload) s = .next u ∧
      ∀ k : Byte × List Byte → State → Res OpValue,
        finish ((exchangeTo s.addr op payload s).andThen k) = .next u) := by
  have hexec : exec (.opExchange op payload) s = finish ((exchangeTo s.addr op payload s).andThen
      fun sf s => .ok (.exchanged sf.1 sf.2) s) := rfl
  obtain ⟨st, f, u, hx, -⟩ | ⟨e, u, hx, -⟩ | ⟨u, hx, -⟩ := exchangeTo_runs s.addr op payload s hp hm
  · exact .inl ⟨st, f, u, hx, by rw [hexec, hx]; rfl⟩
  · refine .inr ⟨takeError e u, fun st f => ?_, by rw [hexec, hx]; rfl, fun k => by rw [hx]; rfl⟩
    obtain h | h := takeError_result e u <;> simp [h]
  · exact .inr ⟨u.resetEvent, fun st f => by simp, by rw [hexec, hx]; rfl, fun k => by rw [hx]; rfl⟩

/-- An instruction that is a status command to `ADDR` is its exchange: the status is the result, and what
ends the exchange otherwise ends the command. -/
theorem statusCommand_follows_exchange {i : Instr} {op : CmdOp} {payload : List Byte} {s : State}
    (hi : exec i s = finish (statusCommand s.addr op payload s))
    (hp : s.params.ok = true) (hm : payload.length ≤ s.params.maxPayload) :
    ∃ u : State, exec (.opExchange op payload) s = .next u ∧
      (∀ st fields, u.result = some (.ok (.exchanged st fields)) →
        exec i s = .next (u.setResult (some (.ok (.status st))))) ∧
      ((∀ st fields, u.result ≠ some (.ok (.exchanged st fields))) → exec i s = .next u) := by
  obtain ⟨st, f, u, hx, hex⟩ | ⟨u, hno, hex, hk⟩ := exec_opExchange_cases op payload s hp hm
  · refine ⟨_, hex, fun st' f' h => ?_, fun h => absurd rfl (h st f)⟩
    obtain ⟨rfl, rfl⟩ : st = st' ∧ f = f' := by simpa using h
    rw [hi, statusCommand, hx]
    rfl
  · exact ⟨u, hex, fun st f h => absurd h (hno st f), fun _ => hi.trans (hk _)⟩

theorem exec_opVfyPwd_idle (pw : Bytes4) (s : State) (h : s.fsm = .idle) :
    exec (.opVfyPwd pw) s = finish (statusCommand s.addr .vfyPwd (vfyPwdPayload s.params pw) s) :=
  whenIdle_idle s _ h

theorem exec_opGenImage_idle (s : State) (h : s.fsm = .idle) :
    exec .opGenImage s = finish (statusCommand s.addr .genImage [s.params.icGenImage] s) :=
  whenIdle_idle s _ h

/-- Security levels are 1 to 5 (R187). -/
theorem legalSecurity_iff (level : Nat) : legalSecurity level = true ↔ 1 ≤ level ∧ level ≤ 5 := by
  simp [legalSecurity]

theorem exec_opSetSecurity_legal {level : Nat} (s : State) (h : s.fsm = .idle)
    (hl : legalSecurity level = true) :
    exec (.opSetSecurity level) s = finish (statusCommand s.addr .setSecurity
      (setParamPayload s.params s.params.pnSecurity level) s) := by
  change execOpSetSecurity level s = _
  rw [execOpSetSecurity, whenIdle_idle _ _ h, setSecurityCommand, if_pos hl]

theorem exec_opSetSecurity_illegal {level : Nat} (s : State) (h : s.fsm = .idle)
    (hl : ¬ legalSecurity level = true) :
    exec (.opSetSecurity level) s = .next (s.setResult (some (.err .invalidParameter))) := by
  change execOpSetSecurity level s = _
  rw [execOpSetSecurity, whenIdle_idle _ _ h, setSecurityCommand, if_neg hl, finish_raise,
    takeError_invalidParameter s h]

/-- Settles O19: each of the three is a status command, and a status command follows its exchange. -/
theorem statusCommandsAreTheirExchange : Obligations.StatusCommandsAreTheirExchange := by
  unfold Obligations.StatusCommandsAreTheirExchange
  intro s pw level hp hidle hmax
  refine ⟨?vfyPwd, ?genImage, fun hlevel => ?legal, fun hlevel => ?illegal⟩
  case vfyPwd => exact statusCommand_follows_exchange (exec_opVfyPwd_idle pw s hidle) hp hmax
  case genImage =>
    exact statusCommand_follows_exchange (exec_opGenImage_idle s hidle) hp
      (by omega : 1 ≤ s.params.maxPayload)
  case legal =>
    exact statusCommand_follows_exchange
      (exec_opSetSecurity_legal s hidle ((legalSecurity_iff level).2 hlevel)) hp
      (by omega : 3 ≤ s.params.maxPayload)
  case illegal =>
    exact exec_opSetSecurity_illegal s hidle (mt (legalSecurity_iff level).1 (by omega))

end Sys2Proof.Machine
end

section
/-! PROOFS. The nibble expander (spec/44_nibble_expander.md). -/

namespace Sys2Proof

/-- The first sample in plain arithmetic: the low nibble is cleared in place (R210). -/
theorem expandByte_fst_toNat (b : Byte) : (expandByte b).1.toNat = b.toNat / 16 * 16 := by
  have hmask : b &&& 0xF0#8 = (b >>> 4) <<< 4 := by
    rw [BitVec.shiftLeft_ushiftRight]
    rfl
  have hb : b.toNat < 2 ^ 8 := b.isLt
  simp only [expandByte, hmask, BitVec.toNat_shiftLeft, BitVec.toNat_ushiftRight,
    Nat.shiftRight_eq_div_pow, Nat.shiftLeft_eq]
  omega

/-- The second sample in plain arithmetic: the low nibble moves up (R210). -/
theorem expandByte_snd_toNat (b : Byte) : (expandByte b).2.toNat = b.toNat % 16 * 16 := by
  have hmask : (b &&& 0x0F#8).toNat = b.toNat % 16 := Nat.and_two_pow_sub_one_eq_mod b.toNat 4
  rw [expandByte, BitVec.toNat_shiftLeft, hmask, Nat.shiftLeft_eq]
  omega

/-- Byte `i` of the input gives its two samples at positions `2i` and `2i + 1` of the output (R212). -/
theorem expandBytes_getElem? (raw : List Byte) (i : Nat) :
    (expandBytes raw)[2 * i]? = raw[i]?.map (fun b => (expandByte b).1) ∧
    (expandBytes raw)[2 * i + 1]? = raw[i]?.map (fun b => (expandByte b).2) := by
  induction raw generalizing i with
  | nil => simp [expandBytes]
  | cons b bs ih =>
    cases i with
    | zero => simp [expandBytes]
    | succ i => simpa [expandBytes, Nat.mul_succ] using ih i

/-- Both samples of a byte of the input, masked and shifted as R210 writes them. -/
theorem expandBytes_samples_of_lt (raw : List Byte) (i : Nat) (h : i < raw.length) :
    (expandBytes raw)[2 * i]? = some (raw.getD i 0#8 &&& 0xF0#8) ∧
    (expandBytes raw)[2 * i + 1]? = some ((raw.getD i 0#8 &&& 0x0F#8) <<< 4) := by
  simpa [h, expandByte] using expandBytes_getElem? raw i

end Sys2Proof

namespace Sys2Proof.Machine

/-- EXPAND of more than 256 bytes has no meaning (R212). -/
theorem expandX_tooLong (raw : List Byte) (s : State) (h : 256 < raw.length) :
    expandX raw s = .refused .rawTooLong := if_neg (by omega)

/-- EXPAND of at most 256 bytes fills `XBUF` with the samples, returns them, and does nothing else (R212). -/
theorem exec_opExpand_fits (raw : List Byte) (s : State) (hidle : s.fsm = .idle)
    (h : raw.length ≤ 256) :
    exec (.opExpand raw) s =
      .next ((s.fillX (expandBytes raw)).setResult (some (.ok (.bytes (expandBytes raw))))) := by
  change execOpExpand raw s = _
  rw [execOpExpand, whenIdle_idle _ _ hidle, expandX_fits raw s h, Res.andThen_ok, finish_ok]

theorem exec_opExpand_tooLong (raw : List Byte) (s : State) (hidle : s.fsm = .idle)
    (h : 256 < raw.length) : exec (.opExpand raw) s = .refused .rawTooLong := by
  change execOpExpand raw s = _
  rw [execOpExpand, whenIdle_idle _ _ hidle, expandX_tooLong raw s h, Res.andThen_refused,
    finish_refused]

/-- `XBUF` reads as the bytes it was filled with. -/
theorem State.fillX_read_of_lt (s : State) (bs : List Byte) (i : Nat) (h : i < bs.length) :
    (s.fillX bs).xbuf.read i = bs[i]? := by
  rw [fillX_xbuf, Memory.read_writeBytes, if_pos (by omega), Nat.sub_zero]

/-- `XBUF` above the bytes it was filled with reads as before. -/
theorem State.fillX_read_of_le (s : State) (bs : List Byte) (i : Nat) (h : bs.length ≤ i) :
    (s.fillX bs).xbuf.read i = s.xbuf.read i := by
  rw [fillX_xbuf, Memory.read_writeBytes, if_neg (by omega)]

/-- Settles O33: the samples are those of `expandByte`, read as numbers. -/
theorem expandByteGivesTwoSamples : Obligations.ExpandByteGivesTwoSamples := by
  unfold Obligations.ExpandByteGivesTwoSamples
  intro s b
  exact ⟨(expandByte b).1, (expandByte b).2, rfl, expandByte_fst_toNat b, expandByte_snd_toNat b⟩

/-- Settles O35: the state EXPAND leaves is `fillX` of the samples with the samples as the result. -/
theorem expandFillsXbuf : Obligations.ExpandFillsXbuf := by
  unfold Obligations.ExpandFillsXbuf
  intro s raw hidle
  have hlen := expandBytes_length raw
  refine ⟨fun hfits => ⟨_, expandBytes raw, exec_opExpand_fits raw s hidle hfits, rfl, hlen, hlen,
    expandBytes_samples_of_lt raw, ?inside, ?above, rfl⟩, exec_opExpand_tooLong raw s hidle⟩
  case inside => exact fun i hi => s.fillX_read_of_lt _ i (hlen ▸ hi)
  case above => exact fun i hi => s.fillX_read_of_le _ i (hlen ▸ hi)

end Sys2Proof.Machine
end

section
/-! PROOFS. The bulk transfer (spec/45_bulk_transfer.md). -/

namespace Sys2Proof.Machine

/-- With nothing presented, the step out of `AwaitingGenerateAck` is that state's exchange (R224). -/
theorem step_awaiting {s : State} (hf : s.fsm = .awaitingGenerateAck) (hi : s.inputs = []) :
    step s = finishRun (awaitAck s.addr s) :=
  (step_advance s hi).trans (advance_awaiting s hf)

/-- A success status opens the stream (R224). -/
theorem awaitAck_success {addr : Bytes4} {s u : State} {st : Byte} {fields : List Byte}
    (hx : exchangeTo addr .upImage [s.params.icUpImage] s = .ok (st, fields) u)
    (hst : st = u.params.stSuccess) :
    awaitAck addr s = .ok none (u.setFsm .streamingFrames) := by
  rw [awaitAck, hx, Res.andThen_ok, if_pos hst]

/-- Any other status ends the upload with that status (R224). -/
theorem awaitAck_otherStatus {addr : Bytes4} {s u : State} {st : Byte} {fields : List Byte}
    (hx : exchangeTo addr .upImage [s.params.icUpImage] s = .ok (st, fields) u)
    (hst : st ≠ u.params.stSuccess) :
    awaitAck addr s = .ok (some (.status st)) (u.setFsm .idle) := by
  rw [awaitAck, hx, Res.andThen_ok, if_neg hst]

/-- Settles O38: OP.EXCHANGE and the step run the same exchange, which returns a status, raises or is reset;
on the last two they end alike, and no exchange delivers. -/
theorem awaitingPerformsTheExchange : Obligations.AwaitingPerformsTheExchange := by
  unfold Obligations.AwaitingPerformsTheExchange
  intro s hp hfsm hmax hinputs
  have hexec : exec (.opExchange .upImage [s.params.icUpImage]) s =
      finish ((exchangeTo s.addr .upImage [s.params.icUpImage] s).andThen
        fun sf s => .ok (.exchanged sf.1 sf.2) s) := rfl
  rw [hexec, step_awaiting hfsm hinputs]
  obtain ⟨st, f, u, hx, hu, -⟩ | ⟨e, u, hx, hu⟩ | ⟨u, hx, hu⟩ :=
    exchangeTo_runs s.addr .upImage [s.params.icUpImage] s hp hmax
  case inl =>
    rw [hx, Res.andThen_ok, finish_ok, ← hu.params]
    refine ⟨_, rfl, hu.delivered, fun st' f' h => ?_, by simp, by simp⟩
    obtain ⟨rfl, rfl⟩ : st = st' ∧ f = f' := by simpa using h
    refine ⟨fun hst => ?_, fun hst => ?_⟩
    · rw [awaitAck_success hx hst]
      rfl
    · rw [awaitAck_otherStatus hx hst]
      rfl
  case inr.inl =>
    have hstep : finishRun (awaitAck s.addr s) = .next (takeError e u) := by
      rw [awaitAck, hx, Res.andThen_raise, finishRun_raise]
    rw [hx, Res.andThen_raise, finish_raise]
    refine ⟨_, rfl, (takeError_delivered e u).trans hu.delivered, fun st f h => ?_,
      fun _ _ => ⟨takeError_fsm e u, hstep⟩, fun _ => hstep⟩
    obtain hr | hr := takeError_result e u <;> simp [hr] at h
  case inr.inr =>
    have hstep : finishRun (awaitAck s.addr s) = .next u.resetEvent := by
      rw [awaitAck, hx, Res.andThen_reset, finishRun_reset]
    rw [hx, Res.andThen_reset, finish_reset]
    exact ⟨_, rfl, hu.delivered, by simp, by simp, fun _ => hstep⟩

end Sys2Proof.Machine
end

section
/-! PROOFS. Exceptions (spec/60_exceptions.md). -/

namespace Sys2Proof.Machine

/-- The kinds that flush, named one by one: the check errors always, the transport errors where
`FLUSH_ON_TRANSPORT_ERROR` is set (R250, R262). -/
theorem flushes_iff (p : Params) (e : ErrorKind) :
    flushes p e = true ↔
      e ∈ [ErrorKind.checksumMismatch, .startMismatch, .addressMismatch, .kindMismatch,
        .lengthMismatch] ∨
      (p.flushOnTransportError = true ∧
        e ∈ [ErrorKind.writeFailure, .partialWrite, .readFailure, .notFound, .shortRead,
          .reconfigureFailure]) := by
  cases e <;> simp [flushes, ErrorKind.category]

/-- Settles O43: the kinds the statement lists are those that flush, and the abort action does one of
three things: no flush, a flush, or a flush a reset lands in. -/
theorem abortActionFlushesByCategory : Obligations.AbortActionFlushesByCategory := by
  unfold Obligations.AbortActionFlushesByCategory
  intro s e checkError transportError flush
  have hflush : flushes s.params e = true ↔ flush := flushes_iff s.params e
  rw [← hflush]
  obtain ⟨hf, htake⟩ | ⟨hf, -, htake⟩ | ⟨hf, hreset, -⟩ := takeError_cases e s
  · exact ⟨fun h _ => absurd h (by simp [hf]), fun _ => htake⟩
  · exact ⟨fun _ _ => htake, fun h => absurd hf h⟩
  · exact ⟨fun _ hr => absurd hreset (by simp [State.choice_eq, hr]), fun h => absurd hf h⟩

end Sys2Proof.Machine
end

section
/-! PROOFS. The encoding (spec/30_encoding.md). -/

namespace Sys2Proof

/-! ### Encoding what was decoded -/

/-- A buffer the decoder accepts is the frame of the fields it splits into. -/
theorem frameBytes_splitFrame {p : Params} {k : Kind} {bs : List Byte} (hlen : 11 ≤ bs.length)
    (h0 : (splitFrame bs).start0 = p.start0) (h1 : (splitFrame bs).start1 = p.start1)
    (hk : kindOf p (splitFrame bs).kbyte = some k) :
    frameBytes p k (splitFrame bs).addr (splitFrame bs).length (splitFrame bs).payload
      (splitFrame bs).checksum = bs := by
  rw [frameBytes, kindByte_of_kindOf hk, ← h0, ← h1]
  exact joinFrame_splitFrame bs hlen

/-- The row of a Command frame keeps all that its bytes say. -/
theorem encode_decodeRequest (p : Params) (f : FrameFields) :
    encode p (decodeRequest p f) =
      some (frameBytes p .command f.addr f.length f.payload f.checksum) := by
  obtain ⟨s0, s1, addr, kb, len, payload, cks⟩ := f
  unfold decodeRequest
  dsimp only
  split
  case isFalse => rfl
  case isTrue hl =>
    subst hl
    split
    · split_ifs with h1 h2 h3 h4 <;> subst_vars <;> rfl
    · split_ifs with hc h1 h2 h3 <;> subst_vars <;> rfl
    · split_ifs with hc <;> subst_vars <;> rfl
    · rfl

/-- The row of an Acknowledge frame keeps all that its bytes say. -/
theorem encode_decodeAck (p : Params) (f : FrameFields) :
    encode p (decodeAck f) =
      some (frameBytes p .acknowledge f.addr f.length f.payload f.checksum) := by
  obtain ⟨s0, s1, addr, kb, len, payload, cks⟩ := f
  unfold decodeAck
  dsimp only
  split
  case isFalse => rfl
  case isTrue hl =>
    subst hl
    cases payload with
    | nil => rfl
    | cons status rest =>
      dsimp only
      split_ifs with h0 h2 h16
      · rw [List.length_eq_zero_iff] at h0
        subst h0
        rfl
      · obtain ⟨x, y, rfl⟩ := List.length_eq_two.1 h2
        simp [encode, byteAt, lengthField, checksumSize]
      · simp [encode, SysParams.toBytes_ofBytes rest h16, h16, lengthField, checksumSize]
      · rfl

/-- Settles O51: the bytes are the frame of the fields the decoder splits them into, and the row it names
keeps those fields. -/
theorem encodeUndoesDecode : Obligations.EncodeUndoesDecode := by
  unfold Obligations.EncodeUndoesDecode
  intro p i bs h
  unfold decode at h
  split at h
  case isTrue => cases h
  case isFalse hlen =>
    dsimp only at h
    split at h
    case isFalse => cases h
    case isTrue hstart =>
      obtain ⟨h0, h1⟩ := hstart
      have hframe := fun k => frameBytes_splitFrame (k := k) (Nat.not_lt.1 hlen) h0 h1
      split at h <;> cases h
      case h_1 hk => rw [encode_decodeRequest, hframe _ hk]
      case h_2 hk => rw [encode, hframe _ hk]
      case h_3 hk => rw [encode_decodeAck, hframe _ hk]
      case h_4 hk => rw [encode, hframe _ hk]

/-! ### Decoding what was encoded -/

/-- The six code tests and the three parameter-number tests of `codesDistinct`. -/
theorem codesDistinct_iff (p : Params) :
    p.codesDistinct = true ↔
      p.icReadSysPara ≠ p.icTemplateNum ∧ p.icReadSysPara ≠ p.icGenImage ∧
      p.icReadSysPara ≠ p.icUpImage ∧ p.icTemplateNum ≠ p.icGenImage ∧
      p.icTemplateNum ≠ p.icUpImage ∧ p.icGenImage ≠ p.icUpImage ∧
      p.pnBaud ≠ p.pnSecurity ∧ p.pnBaud ≠ p.pnDatalen ∧ p.pnSecurity ≠ p.pnDatalen := by
  simp [Params.codesDistinct, and_assoc]

/-- A Command frame whose payload is no request's is the general row (R87). -/
theorem decodeRequest_of_not_request {p : Params} (f : FrameFields)
    (h : isRequestPayload p f.payload = false) :
    decodeRequest p f = .frameCommand f.addr f.length f.payload f.checksum := by
  obtain ⟨s0, s1, addr, kb, len, payload, cks⟩ := f
  dsimp only at h
  unfold isRequestPayload at h
  unfold decodeRequest
  dsimp only
  split
  case isFalse => rfl
  case isTrue =>
    split at h
    all_goals simp_all

/-- An Acknowledge frame whose payload has no row's size is the general row (R88). -/
theorem decodeAck_of_not_row (f : FrameFields) (h : isAckRowPayload f.payload = false) :
    decodeAck f = .frameAck f.addr f.length f.payload f.checksum := by
  obtain ⟨s0, s1, addr, kb, len, payload, cks⟩ := f
  unfold decodeAck
  cases payload <;> simp_all [isAckRowPayload]

/-- The bytes of a code-only request decode to its row: the codes differ, so the first match is its own. -/
theorem decode_codeRequests {p : Params} (hp : p.ok = true) (hd : p.codesDistinct = true) :
    let d := fun a c cks => decode p (frameBytes p .command a 3#16 [c] cks)
    (∀ a cks, d a p.icReadSysPara cks = .ok (.readSysPara a cks)) ∧
    (∀ a cks, d a p.icTemplateNum cks = .ok (.templateNum a cks)) ∧
    (∀ a cks, d a p.icGenImage cks = .ok (.genImage a cks)) ∧
    (∀ a cks, d a p.icUpImage cks = .ok (.upImage a cks)) := by
  obtain ⟨hrt, hrg, hru, htg, htu, hgu, -⟩ := (codesDistinct_iff p).1 hd
  simp [decode_frameBytes p hp, decodeRequest, lengthField, checksumSize, hrt.symm, hrg.symm,
    hru.symm, htg.symm, htu.symm, hgu.symm]

/-- The bytes of a set form decode to its row: the parameter numbers differ. -/
theorem decode_setRequests {p : Params} (hp : p.ok = true) (hd : p.codesDistinct = true) :
    let d := fun a n v cks => decode p (frameBytes p .command a 5#16 [p.icSetSysPara, n, v] cks)
    (∀ a v cks, d a p.pnBaud v cks = .ok (.setBaud a v cks)) ∧
    (∀ a v cks, d a p.pnSecurity v cks = .ok (.setSecurity a v cks)) ∧
    (∀ a v cks, d a p.pnDatalen v cks = .ok (.setDatalen a v cks)) := by
  obtain ⟨-, -, -, -, -, -, hbs, hbd, hsd⟩ := (codesDistinct_iff p).1 hd
  simp [decode_frameBytes p hp, decodeRequest, lengthField, checksumSize, hbs.symm, hbd.symm,
    hsd.symm]

/-- Verify-password is the one request of five payload bytes. -/
theorem decode_vfyPwdRequest {p : Params} (hp : p.ok = true) (a pw : Bytes4) (cks : Half) :
    decode p (frameBytes p .command a 7#16 (p.icVfyPwd :: pw.toList) cks) =
      .ok (.vfyPwd a pw cks) := by
  simp [decode_frameBytes p hp, decodeRequest, lengthField, checksumSize, Bytes4.toList]

/-- The bytes of an acknowledgement row decode to that row, with its fields (R88, R90, R184). -/
theorem decode_ackRows {p : Params} (hp : p.ok = true) (a : Bytes4) (st : Byte) (cks : Half) :
    let d := fun len payload => decode p (frameBytes p .acknowledge a len payload cks)
    d 3#16 [st] = .ok (.ackStatus a st cks) ∧
    (∀ n, d 5#16 [st, hiByte n, loByte n] = .ok (.ackTemplateNum a st n cks)) ∧
    (∀ body : SysParams, d 19#16 (st :: body.toBytes) = .ok (.ackSysPara a st body cks)) := by
  simp [decode_frameBytes p hp, decodeAck, lengthField, checksumSize, byteAt]

/-- Settles O50: the decoder sees the fields that were put together, and each row's payload leads to that
row. -/
theorem decodeUndoesEncode : Obligations.DecodeUndoesEncode := by
  unfold Obligations.DecodeUndoesEncode
  intro p i bs hp hd hwf henc
  obtain ⟨hread, htemplate, hgen, hup⟩ := decode_codeRequests hp hd
  obtain ⟨hbaud, hsecurity, hdatalen⟩ := decode_setRequests hp hd
  cases i with
  | frameCommand a len payload cks =>
    cases henc
    have hreq : isRequestPayload p payload = false := by
      simp only [wellFormed, Bool.and_eq_true, Bool.not_eq_true'] at hwf
      exact hwf.2
    rw [decode_frameBytes p hp, decodeRequest_of_not_request _ hreq]
  | frameAck a len payload cks =>
    cases henc
    have hrow : isAckRowPayload payload = false := by
      simp only [wellFormed, Bool.and_eq_true, Bool.not_eq_true'] at hwf
      exact hwf.2
    rw [decode_frameBytes p hp, decodeAck_of_not_row _ hrow]
  | frameData a len payload cks => cases henc; exact decode_frameBytes p hp ..
  | frameEnd a len payload cks => cases henc; exact decode_frameBytes p hp ..
  | vfyPwd a pw cks => cases henc; exact decode_vfyPwdRequest hp a pw cks
  | readSysPara a cks => cases henc; exact hread a cks
  | templateNum a cks => cases henc; exact htemplate a cks
  | setBaud a sel cks => cases henc; exact hbaud a sel cks
  | setSecurity a level cks => cases henc; exact hsecurity a level cks
  | setDatalen a sel cks => cases henc; exact hdatalen a sel cks
  | genImage a cks => cases henc; exact hgen a cks
  | upImage a cks => cases henc; exact hup a cks
  | ackStatus a st cks => cases henc; exact (decode_ackRows hp a st cks).1
  | ackTemplateNum a st n cks => cases henc; exact (decode_ackRows hp a st cks).2.1 n
  | ackSysPara a st body cks => cases henc; exact (decode_ackRows hp a st cks).2.2 body
  | _ => cases henc

/-- Settles O52: each word is laid out as a frame's bytes and decoded, by evaluation. -/
theorem sampleWordsDecode : Obligations.SampleWordsDecode := by
  unfold Obligations.SampleWordsDecode
  decide +kernel

end Sys2Proof
end

section
/-! PROOFS. What every step keeps (spec/10_state.md, spec/20_memory.md). -/

namespace Sys2Proof.Machine

/-! ### What a step can do at most -/

/-- `t` comes from `s` without a reset: `OUT` has only grown, `BAUD_SEL` is as it was or legal, an upload that
runs in `t` ran in `s` or has its session and its consumer, and each buffer is refilled within its capacity. -/
structure Progress (s t : State) : Prop where
  params : t.params = s.params
  out : s.out <+: t.out
  baud : t.baudSel = s.baudSel ∨ legalBaud t.baudSel.toNat = true
  session : t.fsm ≠ .idle →
    (s.fsm ≠ .idle ∧ t.consumerValid = s.consumerValid ∧ t.sessionP = s.sessionP) ∨
    (t.consumerValid = true ∧ legalSession t.sessionP.toNat = true)
  tx : Refilled s.txbuf t.txbuf s.txlen t.txlen (s.params.maxPayload + 11)
  rx : Refilled s.rxbuf t.rxbuf s.rxlen t.rxlen 267
  x : Refilled s.xbuf t.xbuf s.xlen t.xlen 512

/-- What an outcome from `s` can be: a refusal, progress, or a reset; never a fault. -/
def Moves (s : State) : Host.Outcome State Fault Refusal → Prop
  | .next t => Progress s t ∨ ∃ u : State, u.params = s.params ∧ t = u.resetEvent
  | .fault _ => False
  | .refused _ => True

/-- The same of an operation that is still running. -/
def Res.moves {α : Type} (s : State) (r : Res α) : Prop :=
  r.ends (fun _ t => Progress s t) (fun _ t => Progress s t) (fun t => t.params = s.params) True

theorem Progress.refl (s : State) : Progress s s where
  params := rfl
  out := List.prefix_refl _
  baud := .inl rfl
  session h := .inl ⟨h, rfl, rfl⟩
  tx := .refl ..
  rx := .refl ..
  x := .refl ..

/-- An operation that only does I/O within the buffers' capacities makes progress. -/
theorem Effect.progress {s t : State} {n tx rx : Nat} (h : Effect s t n tx rx)
    (htx : tx ≤ s.params.maxPayload + 11) (hrx : rx ≤ 267) : Progress s t where
  params := h.params
  out := h.out_prefix
  baud := .inl h.baudSel
  session hf := .inl ⟨h.fsm ▸ hf, h.consumerValid, h.sessionP⟩
  tx := h.txbuf.imp_right fun ⟨bs, hb, he⟩ => ⟨bs, Nat.le_trans hb htx, he⟩
  rx := h.rxbuf.imp_right fun ⟨bs, hb, he⟩ => ⟨bs, Nat.le_trans hb hrx, he⟩
  x := .inl ⟨h.xbuf, h.xlen⟩

theorem Progress.setResult {s t : State} (h : Progress s t) (r : Option OpResult) :
    Progress s (t.setResult r) := { h with }

theorem Progress.toIdle {s t : State} (h : Progress s t) : Progress s (t.setFsm .idle) :=
  { h with session := fun hf => absurd rfl hf }

theorem Progress.flushed {s t : State} (h : Progress s t) : Progress s t.flushed := { h with }

/-- Progress does not look at what is presented or waits in `IN`. -/
theorem Moves.of_setIn {s : State} {bs : List Byte} {o : Host.Outcome State Fault Refusal}
    (h : Moves (s.setIn bs) o) : Moves s o := by
  cases o with
  | next t => exact h.imp_left fun h => { h with }
  | fault f => exact h
  | refused q => exact h

theorem Moves.of_setInputs {s : State} {is : List Input} {o : Host.Outcome State Fault Refusal}
    (h : Moves (s.setInputs is) o) : Moves s o := by
  cases o with
  | next t => exact h.imp_left fun h => { h with }
  | fault f => exact h
  | refused q => exact h

/-- Taking an error is progress, or a reset lands in its flush (R262). -/
theorem Progress.takeError {s t : State} (h : Progress s t) (e : ErrorKind) :
    Progress s (takeError e t) ∨ ∃ u : State, u.params = s.params ∧ takeError e t = u.resetEvent := by
  obtain ⟨-, ht⟩ | ⟨-, -, ht⟩ | ⟨-, -, ht⟩ := takeError_cases e t
  · exact .inl (ht ▸ h.toIdle.setResult _)
  · exact .inl (ht ▸ h.flushed.toIdle.setResult _)
  · exact .inr ⟨t.flushed, h.params, ht⟩

theorem Res.moves.finishRun {s : State} {r : Res (Option OpValue)} (h : r.moves s) :
    Moves s (finishRun r) := by
  obtain ⟨v, t, ht, hr⟩ | ⟨e, t, ht, hr⟩ | ⟨t, ht, hr⟩ | ⟨-, q, hr⟩ := finishRun_ends h <;> rw [hr]
  · exact .inl (ht.setResult _)
  · exact ht.takeError e
  · exact .inr ⟨t, ht, rfl⟩
  · trivial

/-- Shaping the value an operation returns moves nothing. -/
theorem Res.moves.returns {α β : Type} {s : State} {r : Res α} (h : r.moves s) (f : α → β) :
    (r.andThen fun a u => .ok (f a) u).moves s := Res.ends_andThen h fun _ _ hu => hu

theorem Res.moves.finish {s : State} {r : Res OpValue} (h : r.moves s) :
    Moves s (finish r) :=
  Res.moves.finishRun (Res.moves.returns h some)

theorem Moves.of_idle {s : State} {o : Host.Outcome State Fault Refusal}
    (h : s.fsm = .idle → Moves s o) : Moves s (Machine.whenIdle s o) := by
  unfold Machine.whenIdle
  split
  · exact h ‹_›
  · trivial

theorem Moves.whenIdle {s : State} {o : Host.Outcome State Fault Refusal} (h : Moves s o) :
    Moves s (Machine.whenIdle s o) := .of_idle fun _ => h


/-! ### The operations -/

theorem encodeTx_moves (kind : Kind) (payload : List Byte) (addr : Bytes4) (s : State) :
    (encodeTx kind payload addr s).moves s := by
  by_cases hf : s.fits payload
  · rw [encodeTx_fits _ _ _ _ hf]
    exact (Effect.fillTx (rx := 0) _ (Nat.le_refl _)).progress
      (by rw [encodeFrame_length]; exact Nat.add_le_add_right hf.1 11) (by omega)
  · rw [encodeTx_too_long _ _ _ _ hf]
    trivial

/-- What does not fit is not sent either (R122). -/
theorem sendTo_too_long (kind : Kind) (payload : List Byte) (addr : Bytes4) (s : State)
    (h : ¬ s.fits payload) : sendTo kind payload addr s = .refused .payloadTooLong := by
  rw [sendTo, encodeTx_too_long _ _ _ _ h, Res.andThen_refused]

theorem sendTo_moves (kind : Kind) (payload : List Byte) (addr : Bytes4) (s : State) :
    (sendTo kind payload addr s).moves s := by
  have h := sendTo_ends kind payload addr s 0
  by_cases hf : s.fits payload
  · have hp : ∀ u, Effect s u 1 (payload.length + 11) 0 → Progress s u := fun u hu =>
      hu.progress (Nat.add_le_add_right hf.1 11) (by omega)
    exact Res.ends_mono h (fun _ => hp) (fun _ => hp) (fun _ hu => hu.1.params) (fun _ => trivial)
  · rw [sendTo_too_long _ _ _ _ hf]
    trivial

theorem recvFrame_moves (accept : List Kind) (expected t : Nat) (s : State) :
    (recvFrame accept expected t s).moves s := by
  have hp : ∀ u, Effect s u 1 0 (min (9 + expected) rxCapacity) → Progress s u := fun u hu =>
    hu.progress (by omega) (by unfold rxCapacity; omega)
  exact Res.ends_mono (recvFrame_ends (Effect.refl s 0 0) accept expected t)
    (fun _ u hu => hp u hu.1) (fun _ => hp) (fun _ hu => hu.1.params) False.elim

theorem exchangeTo_moves (addr : Bytes4) (op : CmdOp) (payload : List Byte) (s : State) :
    (exchangeTo addr op payload s).moves s := by
  have h := exchangeTo_ends addr op payload s
  by_cases hf : s.fits payload
  · have hp : ∀ u, Effect s u 2 (payload.length + 11) (min (ackLen s.params op + 11) rxCapacity) →
        Progress s u := fun u hu =>
      hu.progress (Nat.add_le_add_right hf.1 11) (by unfold rxCapacity; omega)
    exact Res.ends_mono h (fun _ u hu => hp u hu.1) (fun _ => hp) (fun _ hu => hu.1.params)
      (fun _ => trivial)
  · rw [exchangeTo, sendTo_too_long _ _ _ _ hf]
    trivial

/-- What a command does after its exchange only has to keep making progress. -/
theorem exchangeTo_andThen_moves {α : Type} (addr : Bytes4) (op : CmdOp) (payload : List Byte)
    {s : State} {k : Byte × List Byte → State → Res α}
    (hk : ∀ sf u, Progress s u → (k sf u).moves s) :
    ((exchangeTo addr op payload s).andThen k).moves s :=
  Res.ends_andThen (exchangeTo_moves addr op payload s) hk

theorem statusCommand_moves (addr : Bytes4) (op : CmdOp) (payload : List Byte) (s : State) :
    (statusCommand addr op payload s).moves s :=
  exchangeTo_andThen_moves addr op payload fun _ _ hu => hu

theorem readSysParaCommand_moves (addr : Bytes4) (s : State) :
    (readSysParaCommand addr s).moves s := by
  refine exchangeTo_andThen_moves addr _ _ fun sf u hu => ?_
  split <;> exact hu

theorem templateNumCommand_moves (addr : Bytes4) (s : State) :
    (templateNumCommand addr s).moves s := by
  refine exchangeTo_andThen_moves addr _ _ fun sf u hu => ?_
  split <;> exact hu

/-- `BAUD_SEL` takes a legal selector (R24). -/
theorem Progress.setBaudSel {s t : State} {sel : Nat} (h : Progress s t)
    (hsel : legalBaud sel = true) : Progress s (t.setBaudSel sel) :=
  { h with
    baud := .inr (by
      have hlt : sel < 16 := by
        simp only [legalBaud, Bool.or_eq_true, beq_iff_eq] at hsel
        omega
      rw [State.setBaudSel_baudSel, BitVec.toNat_ofNat, Nat.mod_eq_of_lt hlt]
      exact hsel) }

theorem tReconfigure_moves {s t : State} (m : Nat) (h : Progress s t) :
    (tReconfigure m t).moves s := by
  have key : ∀ v c, Progress s ((t.beginCall.setSpeed v).record c) := fun v c => { h with }
  unfold tReconfigure
  dsimp only
  split
  · exact (key _ _).params
  · exact key _ _

theorem setBaudCommand_moves (addr : Bytes4) (sel : Nat) (s : State) :
    (setBaudCommand addr sel s).moves s := by
  unfold setBaudCommand
  split
  · rename_i hsel
    refine exchangeTo_andThen_moves addr _ _ fun sf u hu => ?_
    split
    · refine Res.ends_andThen (tReconfigure_moves sel (hu.setBaudSel hsel)) fun done v hv => ?_
      split <;> exact hv
    · exact hu
  · exact Progress.refl s

theorem setSecurityCommand_moves (addr : Bytes4) (level : Nat) (s : State) :
    (setSecurityCommand addr level s).moves s := by
  unfold setSecurityCommand
  split
  · exact statusCommand_moves addr _ _ s
  · exact Progress.refl s

theorem setDatalenCommand_moves (addr : Bytes4) (sel : Nat) (s : State) :
    (setDatalenCommand addr sel s).moves s := by
  unfold setDatalenCommand
  split
  · refine exchangeTo_andThen_moves addr _ _ fun sf u hu => ?_
    split
    · exact ({ hu with } : Progress s (u.setDlenSel sel))
    · exact hu
  · exact Progress.refl s

theorem tWrite_moves (bs : List Byte) (s : State) : (tWrite bs s).moves s := by
  obtain ⟨n, -, h⟩ := tWrite_cases bs s
  have key : Progress s
      ((s.beginCall.appendOut (bs.take n)).record (.write bs n s.choice.error)) :=
    { Progress.refl s with out := List.prefix_append .. }
  obtain h | h | h := h <;> rw [h]
  · exact key.params
  · exact key
  · exact key

theorem tRead_moves (n t : Nat) (s : State) : (tRead n t s).moves s :=
  Res.ends_mono (tRead_ends (Effect.refl s 0 0) n t)
    (fun _ _ hu => hu.1.progress (by omega) (by omega)) (fun _ _ h => h.elim)
    (fun _ hu => hu.1.params) False.elim

theorem tFlush_moves (s : State) : (tFlush s).moves s := by
  unfold tFlush
  split
  · rfl
  · exact (Progress.refl s).flushed

/-- `XBUF` takes two samples for each of at most 256 bytes (R34, R212). -/
theorem Progress.fillX {s t : State} {bs : List Byte} (h : Progress s t) (hx : t.xbuf = s.xbuf)
    (hbs : bs.length ≤ 512) : Progress s (t.fillX bs) :=
  { h with x := .inr ⟨bs, hbs, by rw [State.fillX_xbuf, hx], Nat.le_refl _⟩ }

theorem expandX_moves (raw : List Byte) (s : State) : (expandX raw s).moves s := by
  by_cases h : raw.length ≤ 256
  · rw [expandX_fits raw s h]
    exact (Progress.refl s).fillX rfl (by rw [expandBytes_length]; omega)
  · rw [expandX_tooLong raw s (by omega)]
    trivial

/-- A selector in the legal set stands for a packet length (R23, R30). -/
theorem legalSession_packetSize {sel : Nat} (h : legalDatalen sel = true) :
    legalSession (BitVec.ofNat 9 (packetSize sel)).toNat = true := by
  have hsel : sel ≤ 3 := of_decide_eq_true h
  interval_cases sel <;> rfl

theorem openUpload_moves (sel : Nat) (s : State) : (openUpload sel s).moves s := by
  unfold openUpload
  split
  · rename_i hconsumer
    split
    · rename_i hsel
      exact { Progress.refl s with session := fun _ => .inr ⟨hconsumer, legalSession_packetSize hsel⟩ }
    · exact Progress.refl s
  · exact Progress.refl s

/-- A transition of a running upload keeps the session it runs in. -/
theorem Progress.setFsm {s t : State} {f : Fsm} (h : Progress s t) (hs : s.fsm ≠ .idle)
    (ht : t.fsm = s.fsm) : Progress s (t.setFsm f) :=
  { h with session := fun _ => h.session (ht ▸ hs) }

theorem awaitAck_moves (addr : Bytes4) {s : State} (hs : s.fsm ≠ .idle) :
    (awaitAck addr s).moves s := by
  have h := awaitAck_ends addr s
  by_cases hf : s.fits [s.params.icUpImage]
  · have hp : ∀ u, Effect s u 2 12 (min (ackLen s.params .upImage + 11) rxCapacity) →
        Progress s u := fun u hu =>
      hu.progress (Nat.add_le_add_right hf.1 11) (by unfold rxCapacity; omega)
    refine Res.ends_mono h ?_ (fun _ => hp) (fun _ hu => hu.1.params) (fun _ => trivial)
    rintro v u ⟨t, ht, ⟨-, rfl⟩ | ⟨-, -, -, rfl⟩⟩
    · exact (hp t ht).setFsm hs ht.fsm
    · exact (hp t ht).toIdle
  · rw [awaitAck, exchangeTo, sendTo_too_long _ _ _ _ hf]
    trivial

theorem streamFrame_moves (s : State) : (streamFrame s).moves s := by
  have hp : ∀ u, Effect s u 1 0 (min (s.sessionP.toNat + 11) rxCapacity) → Progress s u :=
    fun u hu => hu.progress (by omega) (by unfold rxCapacity; omega)
  have hd : ∀ t raw, Effect s t 1 0 (min (s.sessionP.toNat + 11) rxCapacity) →
      raw.length ≤ 256 → Progress s (t.delivered raw) := fun t raw ht hraw =>
    { (hp t ht).fillX (bs := expandBytes raw) ht.xbuf (by rw [expandBytes_length]; omega) with }
  refine Res.ends_mono (streamFrame_ends s) ?_ (fun _ => hp) (fun _ hu => hu.1) (fun _ => trivial)
  rintro v u ⟨t, raw, ht, -, hraw, ⟨-, rfl⟩ | ⟨-, rfl⟩⟩
  · exact hd t raw ht hraw
  · exact (hd t raw ht hraw).toIdle

/-! ### The instructions and the step -/

theorem advance_moves (s : State) : Moves s (advance s) := by
  cases hf : s.fsm with
  | idle => rw [advance_idle s hf]; exact .inl (Progress.refl s)
  | awaitingGenerateAck =>
    rw [advance_awaiting s hf]
    exact (awaitAck_moves s.addr (by simp [hf])).finishRun
  | streamingFrames => rw [advance_streaming s hf]; exact (streamFrame_moves s).finishRun

theorem arrive_moves (bs : List Byte) (s : State) : Moves s (arrive bs s) :=
  (advance_moves _).of_setIn

theorem execUpImage_moves (addr : Bytes4) (s : State) : Moves s (execUpImage addr s) := by
  unfold execUpImage
  split
  · trivial
  · rename_i hf
    exact (awaitAck_moves addr (by simp [hf])).finishRun
  · trivial

theorem execOpValidate_moves (buf : List Byte) (accept : List Kind) (expected : Nat) (s : State) :
    Moves s (execOpValidate buf accept expected s) := by
  refine Moves.whenIdle ?_
  split
  · split
    · exact .inl ((Progress.refl s).setResult _)
    · exact .inl ((Progress.refl s).setResult _)
  · trivial

/-- An operation that only computes a result. -/
theorem finish_ok_moves (v : OpValue) (s : State) : Moves s (finish (.ok v s)) :=
  .inl ((Progress.refl s).setResult _)

theorem exec_moves (i : Instr) (s : State) : Moves s (exec i s) := by
  cases i with
  | frameCommand a len payload cks =>
    exact ((sendTo_moves .command payload a s).returns _).finish.whenIdle
  | frameData | frameAck | frameEnd | ackStatus | ackTemplateNum | ackSysPara =>
    exact arrive_moves _ s
  | vfyPwd | opVfyPwd | genImage | opGenImage => exact (statusCommand_moves ..).finish.whenIdle
  | readSysPara | opReadSysPara => exact (readSysParaCommand_moves ..).finish.whenIdle
  | templateNum | opTemplateNum => exact (templateNumCommand_moves ..).finish.whenIdle
  | setBaud | opSetBaud => exact (setBaudCommand_moves ..).finish.whenIdle
  | setSecurity | opSetSecurity => exact (setSecurityCommand_moves ..).finish.whenIdle
  | setDatalen | opSetDatalen => exact (setDatalenCommand_moves ..).finish.whenIdle
  | upImage a cks => exact execUpImage_moves a s
  | opChecksum | opExpandByte => exact finish_ok_moves _ s
  | opEncode kind payload a =>
    exact ((encodeTx_moves kind payload a s).returns _).finish.whenIdle
  | opDecode buf | opVerifyChecksum buf =>
    refine Moves.whenIdle ?_
    split
    · exact finish_ok_moves _ s
    · trivial
  | opValidate buf accept expected => exact execOpValidate_moves buf accept expected s
  | opTWrite bs =>
    refine Res.moves.finish (Res.ends_andThen (tWrite_moves bs s) fun r u h => ?_)
    cases r <;> exact h
  | opTRead n t =>
    refine Res.moves.finish (Res.ends_andThen (tRead_moves n t s) fun r _ h => ?_)
    cases r <;> exact h
  | opTFlush => exact ((tFlush_moves s).returns _).finish
  | opTReconfigureSpeed m =>
    exact ((tReconfigure_moves m (Progress.refl s)).returns _).finish
  | opSendFrame kind payload =>
    exact ((sendTo_moves kind payload s.addr s).returns _).finish
  | opRecvFrame accept expected t =>
    exact ((recvFrame_moves accept expected t s).returns _).finish
  | opExchange op payload =>
    exact ((exchangeTo_moves s.addr op payload s).returns _).finish
  | opSetAddr a => exact Moves.whenIdle (.inl { Progress.refl s with })
  | opExpand raw => exact ((expandX_moves raw s).returns _).finish.whenIdle
  | opRegisterConsumer valid =>
    exact .of_idle fun hf => .inl { Progress.refl s with session := fun h => absurd hf h }
  | opUploadImage sel => exact (openUpload_moves sel s).finishRun.whenIdle
  | opReadRxcount => exact (finish_ok_moves _ s).whenIdle

/-- Every step is progress, a reset or a refusal. -/
theorem step_moves (s : State) : Moves s (step s) := by
  have hrun : ∀ i rest, Moves s (runPending i rest s) := fun i rest => by
    unfold runPending
    split
    · exact (exec_moves i _).of_setInputs
    · exact advance_moves s
  unfold step
  split
  · exact advance_moves s
  · rename_i rest _
    exact .inr ⟨s.setInputs rest, rfl, rfl⟩
  · exact hrun _ _
  · split
    · exact hrun _ _
    · trivial
  · exact (arrive_moves _ _).of_setInputs

/-! ### The invariant -/

theorem Memory.holds_nil (cap : Nat) : Memory.holds [] 0 cap :=
  ⟨rfl, fun _ h => absurd h (Nat.not_lt_zero _), fun _ _ => rfl, Nat.zero_le _⟩

/-- The state after reset meets the invariant, under every legal binding. -/
theorem State.Inv.resetEvent {s : State} (h : s.params.ok = true) : s.resetEvent.Inv where
  binding := h
  baud := (params_ok_bounds h).2.1
  session hf := absurd rfl hf
  tx := Memory.holds_nil _
  rx := Memory.holds_nil _
  x := Memory.holds_nil _

theorem Progress.inv {s t : State} (h : Progress s t) (hs : s.Inv) : t.Inv where
  binding := by rw [h.params]; exact hs.binding
  baud := by
    obtain hb | hb := h.baud
    · rw [hb]; exact hs.baud
    · exact hb
  session hf := by
    obtain ⟨hrun, hc, hp⟩ | hnew := h.session hf
    · rw [hc, hp]; exact hs.session hrun
    · exact hnew
  tx := by rw [h.params]; exact h.tx.holds (Nat.le_refl _) hs.tx
  rx := h.rx.holds (Nat.le_refl _) hs.rx
  x := h.x.holds (Nat.le_refl _) hs.x

/-- Settles O53: progress keeps each part of the invariant, and a reset brings it about. -/
theorem stepKeepsTheInvariant : Obligations.StepKeepsTheInvariant := by
  unfold Obligations.StepKeepsTheInvariant
  intro s t hs hstep
  have h := step_moves s
  rw [hstep] at h
  obtain h | ⟨u, hu, rfl⟩ := h
  · exact h.inv hs
  · exact State.Inv.resetEvent (hu ▸ hs.binding)

/-- Settles O54: power-on leaves what a reset leaves, in an outside world of which nothing is known. -/
theorem resetMeetsTheInvariant : Obligations.ResetMeetsTheInvariant := by
  unfold Obligations.ResetMeetsTheInvariant
  intro p hp
  exact State.Inv.resetEvent (s := State.resetWith p) hp

/-- Settles O55: no outcome of a step is a fault. -/
theorem noStepReadsAnUnwrittenElement : Obligations.NoStepReadsAnUnwrittenElement := by
  unfold Obligations.NoStepReadsAnUnwrittenElement
  intro s f hstep
  have h := step_moves s
  rw [hstep] at h
  exact h

/-- Settles O57: progress appends to `OUT`, and what else a step can be is a reset. -/
theorem outOnlyGrows : Obligations.OutOnlyGrows := by
  unfold Obligations.OutOnlyGrows
  intro s t hstep
  have h := step_moves s
  rw [hstep] at h
  obtain h | ⟨u, hu, rfl⟩ := h
  · exact .inl h.out
  · exact .inr (hu ▸ rfl)

end Sys2Proof.Machine
end

section
/-! PROOFS. What earlier operations left in the buffers influences nothing (spec/10_state.md R36). -/

namespace Sys2Proof.Machine

/-! ### Forgetting the buffers -/

/-- The state with its three buffers emptied. -/
def State.forgetBuffers (s : State) : State :=
  { s with txbuf := [], txlen := 0, rxbuf := [], rxlen := 0, xbuf := [], xlen := 0 }

/-- An outcome up to what it leaves in the buffers. -/
def forgetOutcome : Host.Outcome State Fault Refusal → Host.Outcome State Fault Refusal
  | .next t => .next t.forgetBuffers
  | .fault f => .fault f
  | .refused q => .refused q

/-- An operation that does the same whatever stands in the buffers, up to what it leaves in them. -/
def Blind {α : Type} (f : State → Res α) : Prop :=
  ∀ s, (f s.forgetBuffers).mapState State.forgetBuffers = (f s).mapState State.forgetBuffers

/-- The same of a meaning. -/
def BlindRun (f : State → Host.Outcome State Fault Refusal) : Prop :=
  ∀ s, forgetOutcome (f s.forgetBuffers) = forgetOutcome (f s)

theorem Res.mapState_andThen {α β : Type} (r : Res α) {k : α → State → Res β}
    (hk : ∀ a, Blind (k a)) :
    (r.andThen k).mapState State.forgetBuffers =
      ((r.mapState State.forgetBuffers).andThen k).mapState State.forgetBuffers := by
  cases r with
  | ok a s => exact (hk a s).symm
  | raise e s => rfl
  | reset s => rfl
  | fault f => rfl
  | refused q => rfl

theorem Blind.andThen {α β : Type} {f : State → Res α} {k : α → State → Res β} (hf : Blind f)
    (hk : ∀ a, Blind (k a)) : Blind fun s => (f s).andThen k := fun s => by
  rw [Res.mapState_andThen _ hk, hf s, ← Res.mapState_andThen _ hk]

theorem Blind.ite {α : Type} {c : State → Prop} [∀ s, Decidable (c s)] {f g : State → Res α}
    (hc : ∀ s, c s.forgetBuffers ↔ c s) (hf : Blind f) (hg : Blind g) :
    Blind fun s => if c s then f s else g s := fun s => by
  by_cases h : c s
  · simpa only [if_pos h, if_pos ((hc s).2 h)] using hf s
  · simpa only [if_neg h, if_neg (mt (hc s).1 h)] using hg s

/-- Taking an error does not look into the buffers (R262). -/
theorem takeError_forgetBuffers (e : ErrorKind) (s : State) :
    (takeError e s.forgetBuffers).forgetBuffers = (takeError e s).forgetBuffers := by
  have hp : s.forgetBuffers.params = s.params := rfl
  have hc : s.forgetBuffers.choice = s.choice := rfl
  unfold takeError
  rw [hp, hc]
  split
  · split <;> rfl
  · rfl

theorem forgetOutcome_finishRun (r : Res (Option OpValue)) :
    forgetOutcome (finishRun (r.mapState State.forgetBuffers)) = forgetOutcome (finishRun r) := by
  cases r with
  | ok v s => cases v <;> rfl
  | raise e s => exact congrArg Host.Outcome.next (takeError_forgetBuffers e s)
  | reset s => rfl
  | fault f => rfl
  | refused q => rfl

theorem Blind.finishRun {f : State → Res (Option OpValue)} (hf : Blind f) :
    BlindRun fun s => finishRun (f s) := fun s => by
  rw [← forgetOutcome_finishRun, hf s, forgetOutcome_finishRun]

theorem Blind.returns {α β : Type} {f : State → Res α} (hf : Blind f) (g : α → β) :
    Blind fun s => (f s).andThen fun a u => .ok (g a) u := hf.andThen fun _ _ => rfl

theorem Blind.finish {f : State → Res OpValue} (hf : Blind f) : BlindRun fun s => finish (f s) :=
  (hf.returns some).finishRun

theorem BlindRun.whenIdle {f : State → Host.Outcome State Fault Refusal} (hf : BlindRun f) :
    BlindRun fun s => whenIdle s (f s) := fun s => by
  have hfsm : s.forgetBuffers.fsm = s.fsm := rfl
  unfold Machine.whenIdle
  dsimp only
  rw [hfsm]
  split
  · exact hf s
  · rfl

/-! ### The operations -/

theorem tWrite_blind (bs : List Byte) : Blind (tWrite bs) := fun s => by
  have hc : s.forgetBuffers.choice = s.choice := rfl
  unfold tWrite
  rw [hc]
  dsimp only
  split
  · rfl
  · split <;> rfl

theorem tRead_blind (n t : Nat) : Blind (tRead n t) := fun s => by
  have hc : s.forgetBuffers.choice = s.choice := rfl
  unfold tRead
  rw [hc]
  dsimp only
  split
  · rfl
  · split <;> rfl

theorem tFlush_blind : Blind tFlush := fun s => by
  have hc : s.forgetBuffers.choice = s.choice := rfl
  unfold tFlush
  rw [hc]
  split <;> rfl

theorem tReconfigure_blind (m : Nat) : Blind (tReconfigure m) := fun s => by
  have hc : s.forgetBuffers.choice = s.choice := rfl
  unfold tReconfigure
  rw [hc]
  dsimp only
  split <;> rfl

theorem deliver_blind (bs : List Byte) : Blind (deliver bs) := fun s => by
  have hc : s.forgetBuffers.choice = s.choice := rfl
  unfold deliver
  rw [hc]
  dsimp only
  split <;> rfl

/-- A fill before an operation that is blind. -/
theorem Blind.after {α : Type} {f : State → Res α} (hf : Blind f) {g : State → State}
    (hg : ∀ s, (g s.forgetBuffers).forgetBuffers = (g s).forgetBuffers) :
    Blind fun s => f (g s) := fun s => by
  rw [← hf (g s), ← hf (g s.forgetBuffers), hg]

/-- SEND_FRAME's write is of the whole frame, so the count it compares with is the frame's length (R155). -/
theorem sendTo_eq (kind : Kind) (payload : List Byte) (addr : Bytes4) (s : State)
    (h : s.fits payload) :
    sendTo kind payload addr s =
      let frame := encodeFrame s.params kind payload addr
      (tWrite frame (s.fillTx frame)).andThen fun r s =>
        match r with
        | .error => .raise .writeFailure s
        | .count c => if c < frame.length then .raise .partialWrite s else .ok () s := by
  rw [sendTo_fits kind payload addr s h]
  dsimp only
  generalize encodeFrame s.params kind payload addr = frame
  obtain ⟨n, -, hw | hw | hw⟩ := tWrite_cases frame (s.fillTx frame) <;> rw [hw] <;> rfl

/-- An operation that reads more of the state than the buffers is blind if it is for each value read. -/
theorem Blind.reads {α β : Type} {c : State → β} {f : β → State → Res α}
    (hc : ∀ s, c s.forgetBuffers = c s) (hf : ∀ b, Blind (f b)) : Blind fun s => f (c s) s :=
  fun s => by
    dsimp only
    rw [hc]
    exact hf _ s

theorem encodeTx_blind (kind : Kind) (payload : List Byte) (addr : Bytes4) :
    Blind (encodeTx kind payload addr) := fun s => by
  by_cases h : s.fits payload
  · rw [encodeTx_fits _ _ _ _ h, encodeTx_fits _ _ _ s.forgetBuffers h]
    rfl
  · rw [encodeTx_too_long _ _ _ _ h, encodeTx_too_long _ _ _ s.forgetBuffers h]

theorem sendTo_blind (kind : Kind) (payload : List Byte) (addr : Bytes4) :
    Blind (sendTo kind payload addr) := fun s => by
  by_cases h : s.fits payload
  · rw [sendTo_eq _ _ _ _ h, sendTo_eq _ _ _ s.forgetBuffers h]
    refine Blind.andThen (f := fun u => tWrite _ (u.fillTx _)) ((tWrite_blind _).after fun u => rfl)
      (fun r => ?_) s
    cases r with
    | error => exact fun _ => rfl
    | count c => exact Blind.ite (fun _ => Iff.rfl) (fun _ => rfl) (fun _ => rfl)
  · rw [sendTo_too_long _ _ _ _ h, sendTo_too_long _ _ _ s.forgetBuffers h]

/-- The checks look at the received bytes, the binding and `ADDR` (R156). -/
theorem judgeFrame_blind (verdict : Bool) (payload buf : List Byte) (accept : List Kind)
    (expected : Nat) : Blind (judgeFrame verdict payload buf accept expected) := fun s => by
  unfold judgeFrame
  have hp : s.forgetBuffers.params = s.params := rfl
  have ha : s.forgetBuffers.addr = s.addr := rfl
  rw [hp, ha]
  split
  · split
    · rfl
    · split <;> rfl
  · rfl

theorem acceptUnsized_blind (b : List Byte) (accept : List Kind) (expected : Nat) :
    Blind (acceptUnsized b accept expected) := by
  refine Blind.reads (c := State.envIndex) (f := fun n s => judgeFrame (Config.freeVerdict n)
    (Config.freePayload n) b accept expected
    (if b.length ≤ rxCapacity then s.fillRx b else s.overfillRx b)) (fun _ => rfl) fun n => ?_
  refine (judgeFrame_blind _ _ _ _ _).after
    (g := fun s => if b.length ≤ rxCapacity then s.fillRx b else s.overfillRx b) fun s => ?_
  split <;> rfl

theorem recvFrame_blind (accept : List Kind) (expected t : Nat) :
    Blind (recvFrame accept expected t) := by
  have hread := tRead_blind (headerSize + expected) t
  have short : ∀ (b : List Byte) (f : State → Res (Kind × List Byte)), Blind f →
      Blind fun s => if b.length = 0 then .raise .notFound s
        else if b.length < headerSize + expected then .raise .shortRead s else f s :=
    fun b f hf => Blind.ite (fun _ => Iff.rfl) (fun _ => rfl)
      (Blind.ite (fun _ => Iff.rfl) (fun _ => rfl) hf)
  by_cases he : ReceivableLength expected
  · rw [funext fun s => recvFrame_eq accept expected t s he]
    refine hread.andThen fun r => ?_
    cases r with
    | error => exact fun _ => rfl
    | bytes b =>
      exact short b _ ((judgeFrame_blind _ _ _ _ _).after (g := fun s => s.fillRx b) fun _ => rfl)
  · rw [funext fun s => recvFrame_unsized accept expected t s he]
    refine hread.andThen fun r => ?_
    cases r with
    | error => exact fun _ => rfl
    | bytes b => exact short b _ (acceptUnsized_blind b accept expected)

theorem exchangeTo_blind (addr : Bytes4) (op : CmdOp) (payload : List Byte) :
    Blind (exchangeTo addr op payload) := by
  refine (sendTo_blind .command payload addr).andThen fun _ => ?_
  refine Blind.andThen (Blind.reads (c := fun s => ackLen s.params op + checksumSize)
    (f := fun n => recvFrame acceptAck n (Config.timeout op)) (fun _ => rfl)
    fun n => recvFrame_blind _ _ _) fun answer => ?_
  obtain ⟨k, _ | ⟨st, f⟩⟩ := answer <;> exact fun _ => rfl

/-- What follows an exchange to an address read from the state. -/
theorem exchangeTo_andThen_blind {α : Type} (addr : Bytes4) (op : CmdOp) {payload : State → List Byte}
    {k : Byte × List Byte → State → Res α} (hp : ∀ s, payload s.forgetBuffers = payload s)
    (hk : ∀ sf, Blind (k sf)) :
    Blind fun s => (exchangeTo addr op (payload s) s).andThen k :=
  (Blind.reads hp fun p => exchangeTo_blind addr op p).andThen hk

theorem statusCommand_blind (addr : Bytes4) (op : CmdOp) {payload : State → List Byte}
    (hp : ∀ s, payload s.forgetBuffers = payload s) :
    Blind fun s => statusCommand addr op (payload s) s :=
  exchangeTo_andThen_blind addr op hp fun _ _ => rfl

theorem readSysParaCommand_blind (addr : Bytes4) : Blind (readSysParaCommand addr) :=
  exchangeTo_andThen_blind addr _ (fun _ => rfl) fun _ =>
    Blind.ite (fun _ => Iff.rfl) (fun _ => rfl) (fun _ => rfl)

theorem templateNumCommand_blind (addr : Bytes4) : Blind (templateNumCommand addr) :=
  exchangeTo_andThen_blind addr _ (fun _ => rfl) fun _ =>
    Blind.ite (fun _ => Iff.rfl) (fun _ => rfl) (fun _ => rfl)

theorem setBaudCommand_blind (addr : Bytes4) (sel : Nat) : Blind (setBaudCommand addr sel) := by
  refine Blind.ite (fun _ => Iff.rfl) ?_ (fun _ => rfl)
  refine exchangeTo_andThen_blind addr _ (fun _ => rfl) fun sf => ?_
  refine Blind.ite (fun _ => Iff.rfl) ?_ (fun _ => rfl)
  refine ((tReconfigure_blind sel).after (g := fun s => s.setBaudSel sel) fun _ => rfl).andThen
    fun done => ?_
  exact Blind.ite (fun _ => Iff.rfl) (fun _ => rfl) (fun _ => rfl)

theorem setSecurityCommand_blind (addr : Bytes4) (level : Nat) :
    Blind (setSecurityCommand addr level) :=
  Blind.ite (fun _ => Iff.rfl) (statusCommand_blind addr _ fun _ => rfl) (fun _ => rfl)

theorem setDatalenCommand_blind (addr : Bytes4) (sel : Nat) : Blind (setDatalenCommand addr sel) := by
  refine Blind.ite (fun _ => Iff.rfl) ?_ (fun _ => rfl)
  exact exchangeTo_andThen_blind addr _ (fun _ => rfl) fun sf =>
    Blind.ite (fun _ => Iff.rfl) (fun _ => rfl) (fun _ => rfl)

theorem expandX_blind (raw : List Byte) : Blind (expandX raw) := fun s => by
  by_cases h : raw.length ≤ 256
  · rw [expandX_fits raw _ h, expandX_fits raw _ h]
    rfl
  · rw [expandX_tooLong raw _ (by omega), expandX_tooLong raw _ (by omega)]

theorem openUpload_blind (sel : Nat) : Blind (openUpload sel) :=
  Blind.ite (fun _ => Iff.rfl) (Blind.ite (fun _ => Iff.rfl) (fun _ => rfl) (fun _ => rfl))
    (fun _ => rfl)

theorem awaitAck_blind (addr : Bytes4) : Blind (awaitAck addr) :=
  exchangeTo_andThen_blind addr _ (fun _ => rfl) fun _ =>
    Blind.ite (fun _ => Iff.rfl) (fun _ => rfl) (fun _ => rfl)

/-- A received frame is expanded, counted and delivered, without the `MemRead` of what EXPAND has just
written (R225). -/
theorem streamFrame_eq (s : State) :
    streamFrame s =
      (recvFrame acceptTransfer (s.sessionP.toNat + checksumSize) Config.timeoutStream s).andThen
        fun kp s =>
          if kp.2.length ≤ 256 then
            (deliver (expandBytes kp.2) (s.fillX (expandBytes kp.2)).countFrame).andThen fun _ s =>
              match kp.1 with
              | .endOfData => .ok (some (.status s.params.stSuccess)) (s.setFsm .idle)
              | .data => .ok none s
              | .command => .ok none s
              | .acknowledge => .ok none s
          else .refused .rawTooLong := by
  unfold streamFrame
  congr
  funext kp u
  by_cases h : kp.2.length ≤ 256
  · have hx : (u.fillX (expandBytes kp.2)).countFrame.xbuf.readBytes 0
        (u.fillX (expandBytes kp.2)).countFrame.xlen = some (expandBytes kp.2) :=
      Memory.readBytes_writeBytes ..
    rw [if_pos h, expandX_fits kp.2 u h, Res.andThen_ok]
    dsimp only
    rw [hx] <;> rfl
  · rw [if_neg h, expandX_tooLong kp.2 u (by omega), Res.andThen_refused]

theorem streamFrame_blind : Blind streamFrame := by
  rw [funext streamFrame_eq]
  refine Blind.andThen (Blind.reads (c := fun s => s.sessionP.toNat + checksumSize)
    (f := fun n => recvFrame acceptTransfer n Config.timeoutStream) (fun _ => rfl)
    fun n => recvFrame_blind _ _ _) fun kp => ?_
  refine Blind.ite (fun _ => Iff.rfl) ?_ (fun _ => rfl)
  refine ((deliver_blind _).after (g := fun s => (s.fillX (expandBytes kp.2)).countFrame)
    fun _ => rfl).andThen fun _ => ?_
  obtain ⟨k, raw⟩ := kp
  cases k <;> exact fun _ => rfl

/-! ### The instructions -/

theorem advance_blind : BlindRun advance := fun s => by
  have hfsm : s.forgetBuffers.fsm = s.fsm := rfl
  cases hf : s.fsm with
  | idle => rw [advance_idle s hf, advance_idle _ (hfsm.trans hf)]; rfl
  | awaitingGenerateAck =>
    rw [advance_awaiting s hf, advance_awaiting _ (hfsm.trans hf)]
    exact (awaitAck_blind s.addr).finishRun s
  | streamingFrames =>
    rw [advance_streaming s hf, advance_streaming _ (hfsm.trans hf)]
    exact streamFrame_blind.finishRun s

theorem arrive_blind (bs : State → List Byte) (hb : ∀ s, bs s.forgetBuffers = bs s) :
    BlindRun fun s => arrive (bs s) s := fun s => by
  dsimp only
  rw [hb]
  exact advance_blind (s.setIn (s.inq ++ bs s))

theorem execUpImage_blind (addr : Bytes4) : BlindRun (execUpImage addr) := fun s => by
  have hfsm : s.forgetBuffers.fsm = s.fsm := rfl
  unfold execUpImage
  rw [hfsm]
  split
  · rfl
  · exact (awaitAck_blind addr).finishRun s
  · rfl

theorem execOpValidate_blind (buf : List Byte) (accept : List Kind) (expected : Nat) :
    BlindRun (execOpValidate buf accept expected) := by
  refine BlindRun.whenIdle fun s => ?_
  have hp : s.forgetBuffers.params = s.params := rfl
  have ha : s.forgetBuffers.addr = s.addr := rfl
  rw [hp, ha]
  split
  · split <;> rfl
  · rfl

/-- The address an operation of the block sends to is `ADDR`. -/
theorem Blind.toAddr {α : Type} {f : Bytes4 → State → Res α} (hf : ∀ a, Blind (f a)) :
    Blind fun s => f s.addr s := Blind.reads (c := State.addr) (fun _ => rfl) hf

theorem exec_blind (i : Instr) : BlindRun (exec i) := by
  cases i with
  | frameCommand a len payload cks =>
    exact ((sendTo_blind .command payload a).returns _).finish.whenIdle
  | frameData | frameAck | frameEnd | ackStatus | ackTemplateNum | ackSysPara =>
    exact arrive_blind _ fun _ => rfl
  | vfyPwd a pw =>
    exact (statusCommand_blind a _ (payload := fun s => vfyPwdPayload s.params pw)
      fun _ => rfl).finish.whenIdle
  | genImage a =>
    exact (statusCommand_blind a _ (payload := fun s => [s.params.icGenImage])
      fun _ => rfl).finish.whenIdle
  | readSysPara a => exact (readSysParaCommand_blind a).finish.whenIdle
  | templateNum a => exact (templateNumCommand_blind a).finish.whenIdle
  | setBaud a v => exact (setBaudCommand_blind a _).finish.whenIdle
  | setSecurity a v => exact (setSecurityCommand_blind a _).finish.whenIdle
  | setDatalen a v => exact (setDatalenCommand_blind a _).finish.whenIdle
  | upImage a => exact execUpImage_blind a
  | opVfyPwd pw =>
    exact (Blind.toAddr
      (f := fun a s => statusCommand a .vfyPwd (vfyPwdPayload s.params pw) s)
      fun a => statusCommand_blind a _ fun _ => rfl).finish.whenIdle
  | opGenImage =>
    exact (Blind.toAddr
      (f := fun a s => statusCommand a .genImage [s.params.icGenImage] s)
      fun a => statusCommand_blind a _ fun _ => rfl).finish.whenIdle
  | opReadSysPara => exact (Blind.toAddr readSysParaCommand_blind).finish.whenIdle
  | opTemplateNum => exact (Blind.toAddr templateNumCommand_blind).finish.whenIdle
  | opSetBaud sel => exact (Blind.toAddr fun a => setBaudCommand_blind a sel).finish.whenIdle
  | opSetSecurity level => exact (Blind.toAddr fun a => setSecurityCommand_blind a level).finish.whenIdle
  | opSetDatalen sel => exact (Blind.toAddr fun a => setDatalenCommand_blind a sel).finish.whenIdle
  | opSendFrame kind payload =>
    exact ((Blind.toAddr fun a => sendTo_blind kind payload a).returns _).finish
  | opExchange op payload =>
    exact ((Blind.toAddr fun a => exchangeTo_blind a op payload).returns _).finish
  | opRecvFrame accept expected t => exact ((recvFrame_blind accept expected t).returns _).finish
  | opTWrite bs =>
    refine ((tWrite_blind bs).andThen fun r => ?_).finish
    cases r <;> exact fun _ => rfl
  | opTRead n t =>
    refine ((tRead_blind n t).andThen fun r => ?_).finish
    cases r <;> exact fun _ => rfl
  | opTFlush => exact (tFlush_blind.returns _).finish
  | opTReconfigureSpeed m => exact ((tReconfigure_blind m).returns _).finish
  | opChecksum | opExpandByte => exact fun _ => rfl
  | opEncode kind payload a => exact ((encodeTx_blind kind payload a).returns _).finish.whenIdle
  | opExpand raw => exact ((expandX_blind raw).returns _).finish.whenIdle
  | opDecode buf | opVerifyChecksum buf =>
    refine BlindRun.whenIdle fun _ => ?_
    split <;> rfl
  | opValidate buf accept expected => exact execOpValidate_blind buf accept expected
  | opSetAddr | opRegisterConsumer | opReadRxcount => exact BlindRun.whenIdle fun _ => rfl
  | opUploadImage sel => exact (openUpload_blind sel).finishRun.whenIdle

/-- Settles O56: every meaning is blind, so two runs that differ in the buffers alone end alike. -/
theorem bufferContentsDoNotMatter : Obligations.BufferContentsDoNotMatter := by
  unfold Obligations.BufferContentsDoNotMatter
  intro i s forget
  have h : forgetOutcome (exec i (forget s)) = forgetOutcome (exec i s) := exec_blind i s
  cases hs : exec i s with
  | next t =>
    rw [hs] at h
    cases hf : exec i (forget s) with
    | next u =>
      rw [hf] at h
      exact (Host.Outcome.next.inj h).symm
    | fault g => rw [hf] at h; cases h
    | refused q => rw [hf] at h; cases h
  | fault f =>
    rw [hs] at h
    cases hf : exec i (forget s) with
    | next u => rw [hf] at h; cases h
    | fault g => rfl
    | refused q => rw [hf] at h; cases h
  | refused r =>
    rw [hs] at h
    cases hf : exec i (forget s) with
    | next u => rw [hf] at h; cases h
    | fault g => rw [hf] at h; cases h
    | refused q =>
      rw [hf] at h
      exact (Host.Outcome.refused.inj h).symm

end Sys2Proof.Machine
end

section
/-! PROOFS. The frame codec, continued, and the header validator (spec/40_frame_codec.md,
spec/41_header_validator.md). -/

namespace Sys2Proof

/-! ### The checksum's verdict -/

/-- R126 in plain arithmetic. -/
theorem verifyChecksum_iff (buf : List Byte) :
    verifyChecksum buf = true ↔ sumBytes (coveredBytes buf) % 65536 =
      (byteAt buf (buf.length - 2)).toNat * 256 + (byteAt buf (buf.length - 1)).toNat := by
  rw [verifyChecksum, beq_iff_eq, ← BitVec.toNat_inj, BitVec.toNat_ofNat, be16_toNat]

theorem byteAt_set_ne (buf : List Byte) {i j : Nat} (v : Byte) (h : i ≠ j) :
    byteAt (buf.set i v) j = byteAt buf j := by
  simp [byteAt, List.getD, List.getElem?_set_ne h]

theorem byteAt_set_self (buf : List Byte) {i : Nat} (v : Byte) (h : i < buf.length) :
    byteAt (buf.set i v) i = v := by
  simp [byteAt, List.getD, h]

theorem coveredBytes_length (buf : List Byte) : (coveredBytes buf).length = buf.length - 8 := by
  simp only [coveredBytes, List.length_take, List.length_drop]
  omega

/-- Replacing a covered byte changes the sum by the difference of the two. -/
theorem sumBytes_coveredBytes_set (buf : List Byte) (i : Nat) (v : Byte) (h6 : 6 ≤ i)
    (hi : i < buf.length - 2) :
    sumBytes (coveredBytes (buf.set i v)) + (byteAt buf i).toNat =
      sumBytes (coveredBytes buf) + v.toNat := by
  rw [coveredBytes_set, if_neg (by omega), byteAt, ← coveredBytes_getD buf i h6 hi]
  exact sumBytes_set _ _ _ (by rw [coveredBytes_length]; omega)

/-- A replaced byte outside the covered region leaves the covered bytes alone. -/
theorem coveredBytes_set_outside (buf : List Byte) (i : Nat) (v : Byte)
    (h : i < 6 ∨ buf.length - 2 ≤ i) : coveredBytes (buf.set i v) = coveredBytes buf := by
  rw [coveredBytes_set]
  split
  · rfl
  · exact List.set_eq_of_length_le (by rw [coveredBytes_length]; omega)

/-- No single byte from offset 6 on can change unnoticed: the sum or the checksum changes by less than
65536, and the other stays (R128). -/
theorem verifyChecksum_set_ne (buf : List Byte) (i : Nat) (v : Byte) (h11 : 11 ≤ buf.length)
    (h6 : 6 ≤ i) (hi : i < buf.length) (hv : v ≠ byteAt buf i) (hok : verifyChecksum buf = true) :
    verifyChecksum (buf.set i v) = false := by
  have hne : v.toNat ≠ (byteAt buf i).toNat := fun h => hv (BitVec.eq_of_toNat_eq h)
  have hv8 := v.isLt
  have hb8 := (byteAt buf i).isLt
  rw [verifyChecksum_iff] at hok
  rw [Bool.eq_false_iff, ne_eq, verifyChecksum_iff, List.length_set]
  intro hbad
  by_cases hcov : i < buf.length - 2
  · have hsum := sumBytes_coveredBytes_set buf i v h6 hcov
    rw [byteAt_set_ne _ _ (by omega), byteAt_set_ne _ _ (by omega), ← hok] at hbad
    omega
  · rw [coveredBytes_set_outside _ _ _ (.inr (by omega)), hok] at hbad
    by_cases hlast : i = buf.length - 1
    · subst hlast
      rw [byteAt_set_self _ _ hi, byteAt_set_ne _ _ (by omega)] at hbad
      omega
    · obtain rfl : i = buf.length - 2 := by omega
      rw [byteAt_set_self _ _ hi, byteAt_set_ne _ _ (by omega)] at hbad
      omega

/-- Flipping a bit of a byte gives another byte. -/
theorem xor_bit_ne (b : Byte) {j : Nat} (hj : j < 8) : b ^^^ (1#8 <<< j) ≠ b := by
  intro h
  have hbit := congrArg (fun x : Byte => x.getLsbD j) h
  simp [hj] at hbit

/-- Settles O8: a flipped bit is a changed byte, and the checksum covers nothing before offset 6. -/
theorem singleBitFlipIsDetected : Obligations.SingleBitFlipIsDetected := by
  unfold Obligations.SingleBitFlipIsDetected
  intro buf h11
  refine ⟨fun i j hok h6 hi hj => ?flipped, fun i v hi => ?early⟩
  case flipped => exact verifyChecksum_set_ne buf i _ h11 h6 hi (xor_bit_ne _ hj) hok
  case early =>
    rw [Bool.eq_iff_iff, verifyChecksum_iff, verifyChecksum_iff, List.length_set,
      coveredBytes_set_outside _ _ _ (.inl hi), byteAt_set_ne _ _ (by omega),
      byteAt_set_ne _ _ (by omega)]

/-- Settles O9: the two replacements change the sum by opposite amounts. -/
theorem exchangedBytesAreNotDetected : Obligations.ExchangedBytesAreNotDetected := by
  unfold Obligations.ExchangedBytesAreNotDetected
  intro buf i k h11 hi6 hi hk6 hk
  change verifyChecksum ((buf.set i (byteAt buf k)).set k (byteAt buf i)) = _
  have hfirst := sumBytes_coveredBytes_set buf i (byteAt buf k) hi6 hi
  have hsecond := sumBytes_coveredBytes_set (buf.set i (byteAt buf k)) k (byteAt buf i) hk6
    (by rwa [List.length_set])
  have hbyte : byteAt (buf.set i (byteAt buf k)) k = byteAt buf k := by
    by_cases hik : i = k
    · subst hik
      exact byteAt_set_self _ _ (by omega)
    · exact byteAt_set_ne _ _ hik
  rw [hbyte] at hsecond
  rw [Bool.eq_iff_iff, verifyChecksum_iff, verifyChecksum_iff, List.length_set, List.length_set]
  repeat rw [byteAt_set_ne _ _ (by omega)]
  rw [show sumBytes (coveredBytes ((buf.set i (byteAt buf k)).set k (byteAt buf i))) =
    sumBytes (coveredBytes buf) by omega]

end Sys2Proof

namespace Sys2Proof.Machine

/-! ### CHECKSUM and ENCODE -/

/-- Settles O1: inside its domain the result is `checksum`, whose sum is R120's; outside it is the free value. -/
theorem checksumIsSumOfCoveredBytes : Obligations.ChecksumIsSumOfCoveredBytes := by
  unfold Obligations.ChecksumIsSumOfCoveredBytes
  intro s kind L payload
  refine ⟨_, fun hL h16 => ?_, rfl⟩
  subst hL
  rw [if_pos ⟨rfl, h16⟩]
  exact checksum_toNat s.params kind payload h16

/-- Settles O3: all four encode, and what is longer than `MAX_PAYLOAD` does not fit. -/
theorem encodeRefusesWhatDoesNotFit : Obligations.EncodeRefusesWhatDoesNotFit := by
  unfold Obligations.EncodeRefusesWhatDoesNotFit
  intro s kind payload a op len cks hidle hlong
  have hfit : ¬ s.fits payload := fun h => Nat.not_lt.2 h.1 hlong
  refine ⟨(whenIdle_idle s _ hidle).trans ?encode, ?send, ?exchange,
    (whenIdle_idle s _ hidle).trans ?frame⟩
  case encode => rw [encodeTx_too_long _ _ _ _ hfit]; rfl
  case send =>
    change finish ((sendTo kind payload s.addr s).andThen _) = _
    rw [sendTo_too_long _ _ _ _ hfit]
    rfl
  case exchange =>
    change finish ((exchangeTo s.addr op payload s).andThen _) = _
    rw [exchangeTo, sendTo_too_long _ _ _ _ hfit]
    rfl
  case frame => rw [sendTo_too_long _ _ _ _ hfit]; rfl

/-- Settles O4: splitting gives back the length field that was put in. -/
theorem encodedLengthInvariant : Obligations.EncodedLengthInvariant := by
  unfold Obligations.EncodedLengthInvariant
  intro p kind payload a h16
  rw [encodeFrame, splitFrame_joinFrame, joinFrame_length]
  exact ⟨lengthField_toNat _ h16, rfl⟩

/-! ### DECODE and VERIFY_CHECKSUM -/

theorem exec_opDecode_idle {buf : List Byte} (s : State) (hidle : s.fsm = .idle)
    (h : 11 ≤ buf.length) :
    exec (.opDecode buf) s = .next (s.setResult (some (.ok (.fields (splitFrame buf))))) := by
  change execOpDecode buf s = _
  rw [execOpDecode, whenIdle_idle _ _ hidle, if_pos h, finish_ok]

theorem exec_opDecode_short {buf : List Byte} (s : State) (hidle : s.fsm = .idle)
    (h : buf.length < 11) : exec (.opDecode buf) s = .refused .bufferTooShort := by
  change execOpDecode buf s = _
  rw [execOpDecode, whenIdle_idle _ _ hidle, if_neg (by omega)]

theorem exec_opVerifyChecksum_idle {buf : List Byte} (s : State) (hidle : s.fsm = .idle)
    (h : 11 ≤ buf.length) :
    exec (.opVerifyChecksum buf) s =
      .next (s.setResult (some (.ok (.verdict (verifyChecksum buf))))) := by
  change execOpVerifyChecksum buf s = _
  rw [execOpVerifyChecksum, whenIdle_idle _ _ hidle, if_pos h, finish_ok]

theorem exec_opVerifyChecksum_short {buf : List Byte} (s : State) (hidle : s.fsm = .idle)
    (h : buf.length < 11) : exec (.opVerifyChecksum buf) s = .refused .bufferTooShort := by
  change execOpVerifyChecksum buf s = _
  rw [execOpVerifyChecksum, whenIdle_idle _ _ hidle, if_neg (by omega)]

/-- Settles O5: DECODE takes apart what ENCODE put together, whose checksum is right. -/
theorem decodeRecoversEncodedFrame : Obligations.DecodeRecoversEncodedFrame := by
  unfold Obligations.DecodeRecoversEncodedFrame
  intro s kind payload a hp hidle hmax
  have h11 : 11 ≤ (encodeFrame s.params kind payload a).length := by
    rw [encodeFrame_length]
    omega
  have h16 : payload.length ≤ maxLength16 := hmax.trans (params_ok_bounds hp).1
  have hdecode := exec_opDecode_idle s hidle h11
  rw [encodeFrame, splitFrame_joinFrame, ← encodeFrame] at hdecode
  refine ⟨_, hdecode, rfl, rfl, rfl, rfl, kindOf_kindByte s.params hp kind,
    lengthField_toNat _ h16, rfl, rfl, ?_⟩
  rw [exec_opVerifyChecksum_idle s hidle h11, verifyChecksum_encodeFrame]
  rfl

/-- Settles O6: the fields a buffer is split into join to the buffer again. -/
theorem decodeSplitsTheBuffer : Obligations.DecodeSplitsTheBuffer := by
  unfold Obligations.DecodeSplitsTheBuffer
  intro s buf hidle
  refine ⟨fun h11 => ⟨splitFrame buf, exec_opDecode_idle s hidle h11, ?_⟩,
    exec_opDecode_short s hidle⟩
  conv_lhs => rw [← joinFrame_splitFrame buf h11]
  simp [joinFrame_eq, hiByte_eq, loByte_eq]

/-- Settles O7: the verdict is `verifyChecksum`, whose sum is R126's. -/
theorem verifyChecksumComparesTheSum : Obligations.VerifyChecksumComparesTheSum := by
  unfold Obligations.VerifyChecksumComparesTheSum
  intro s buf hidle
  refine ⟨fun h11 => ⟨verifyChecksum buf, exec_opVerifyChecksum_idle s hidle h11, ?_⟩,
    exec_opVerifyChecksum_short s hidle⟩
  rw [verifyChecksum_iff, sumBytes_eq_sum]
  rfl

/-! ### VALIDATE -/

theorem startMatches_iff (p : Params) (buf : List Byte) :
    startMatches p buf = true ↔ byteAt buf 0 = p.start0 ∧ byteAt buf 1 = p.start1 := by
  simp [startMatches]

theorem addressMatches_iff (a : Bytes4) (buf : List Byte) :
    addressMatches a buf = true ↔ byteAt buf 2 = a.b0 ∧ byteAt buf 3 = a.b1 ∧
      byteAt buf 4 = a.b2 ∧ byteAt buf 5 = a.b3 := by
  simp [addressMatches, and_assoc]

/-- The kind check under a legal binding: the byte is that of an accepted kind (R143). -/
theorem kindAccepted_iff {p : Params} (hp : p.ok = true) (accept : List Kind) (buf : List Byte) :
    kindAccepted p accept buf = true ↔ ∃ k ∈ accept, byteAt buf 6 = kindByte p k := by
  unfold kindAccepted
  constructor
  · intro h
    split at h
    · cases h
    · rename_i k hk
      exact ⟨k, of_decide_eq_true h, (kindByte_of_kindOf hk).symm⟩
  · rintro ⟨k, hk, hb⟩
    rw [hb, kindOf_kindByte p hp]
    exact decide_eq_true hk

theorem lengthMatches_iff (expected : Nat) (buf : List Byte) :
    lengthMatches expected buf = true ↔
      (byteAt buf 7).toNat * 256 + (byteAt buf 8).toNat = expected := by
  simp [lengthMatches, be16_toNat]

/-- VALIDATE's result as the operation returns it (R140). -/
def validateResult (p : Params) (addr : Bytes4) (buf : List Byte) (accept : List Kind)
    (expected : Nat) : OpResult :=
  match validateHeader p addr buf accept expected with
  | none => .ok .done
  | some e => .err e

theorem exec_opValidate_idle {buf : List Byte} (accept : List Kind) (expected : Nat) (s : State)
    (hidle : s.fsm = .idle) (h : 9 ≤ buf.length) :
    exec (.opValidate buf accept expected) s =
      .next (s.setResult (some (validateResult s.params s.addr buf accept expected))) := by
  change execOpValidate buf accept expected s = _
  rw [execOpValidate, whenIdle_idle _ _ hidle, if_pos h, validateResult]
  cases validateHeader s.params s.addr buf accept expected <;> rfl

theorem exec_opValidate_short {buf : List Byte} (accept : List Kind) (expected : Nat) (s : State)
    (hidle : s.fsm = .idle) (h : buf.length < 9) :
    exec (.opValidate buf accept expected) s = .refused .bufferTooShort := by
  change execOpValidate buf accept expected s = _
  rw [execOpValidate, whenIdle_idle _ _ hidle, if_neg (by omega)]

/-- Settles O10: the four checks are tried in order, and the first that fails gives the error. -/
theorem validateReportsFirstFailure : Obligations.ValidateReportsFirstFailure := by
  unfold Obligations.ValidateReportsFirstFailure
  intro s buf accept expected hp hidle b startOk addrOk kindOk lengthOk
  have hstart : startMatches s.params buf = true ↔ startOk := startMatches_iff _ _
  have haddr : addressMatches s.addr buf = true ↔ addrOk := addressMatches_iff _ _
  have hkind : kindAccepted s.params accept buf = true ↔ kindOk := kindAccepted_iff hp _ _
  have hlength : lengthMatches expected buf = true ↔ lengthOk := lengthMatches_iff _ _
  rw [← hstart, ← haddr, ← hkind, ← hlength]
  refine ⟨fun h9 => ⟨_, exec_opValidate_idle accept expected s hidle h9, ?_, ?_, ?_, ?_, ?_⟩,
    exec_opValidate_short accept expected s hidle⟩
  all_goals intros; simp [validateResult, validateHeader, *]

end Sys2Proof.Machine
end

section
/-! PROOFS. The transport primitives, SEND_FRAME, RECV_FRAME and EXCHANGE (spec/42_transport_exchange.md). -/

namespace Sys2Proof.Machine

/-! ### The primitives: with no reset they complete, with one the same bytes have moved -/

/-- The state after `T.write(bs)`: the accepted bytes have gone out (R52, R150). -/
def State.wrote (s : State) (bs : List Byte) : State :=
  (s.beginCall.appendOut (bs.take (min (s.choiceAt 0).count bs.length))).record
    (.write bs (min (s.choiceAt 0).count bs.length) (s.choiceAt 0).error)

/-- The bytes `T.read(n, t)` takes from the front of `IN` (R53, R151). -/
def State.taken (s : State) (n : Nat) : List Byte :=
  (s.inq ++ (s.choiceAt 0).arrived).take (min (s.choiceAt 0).count n)

/-- The state after `T.read(n, t)`: those bytes are gone, whatever it reports (R61). -/
def State.didRead (s : State) (n t : Nat) : State :=
  (s.beginCall.setIn ((s.inq ++ (s.choiceAt 0).arrived).drop (min (s.choiceAt 0).count n))).record
    (.read n t (s.taken n) (s.choiceAt 0).error)

theorem tWrite_completes (bs : List Byte) (s : State) (hr : (s.choiceAt 0).reset = false) :
    tWrite bs s = .ok (if (s.choiceAt 0).error then .error
      else .count (min (s.choiceAt 0).count bs.length)) (s.wrote bs) := by
  have h : tWrite bs s = if (s.choiceAt 0).reset then .reset (s.wrote bs)
      else if (s.choiceAt 0).error then .ok .error (s.wrote bs)
      else .ok (.count (min (s.choiceAt 0).count bs.length)) (s.wrote bs) := rfl
  rw [h, hr, if_neg Bool.false_ne_true]
  cases (s.choiceAt 0).error <;> rfl

theorem tWrite_reset (bs : List Byte) (s : State) (hr : (s.choiceAt 0).reset = true) :
    tWrite bs s = .reset (s.wrote bs) := if_pos hr

theorem tRead_completes (n t : Nat) (s : State) (hr : (s.choiceAt 0).reset = false) :
    tRead n t s = .ok (if (s.choiceAt 0).error then .error else .bytes (s.taken n))
      (s.didRead n t) := by
  have h : tRead n t s = if (s.choiceAt 0).reset then .reset (s.didRead n t)
      else if (s.choiceAt 0).error then .ok .error (s.didRead n t)
      else .ok (.bytes (s.taken n)) (s.didRead n t) := rfl
  rw [h, hr, if_neg Bool.false_ne_true]
  cases (s.choiceAt 0).error <;> rfl

theorem tRead_reset (n t : Nat) (s : State) (hr : (s.choiceAt 0).reset = true) :
    tRead n t s = .reset (s.didRead n t) := if_pos hr

theorem tReconfigure_reset (m : Nat) (s : State) (hr : (s.choiceAt 0).reset = true) :
    tReconfigure m s = .reset ((s.beginCall.setSpeed .unknown).record
      (.reconfigure m (s.choiceAt 0).error)) := by
  unfold tReconfigure
  simp [State.choice_eq, hr]

/-- Settles O11: the two ends of `T.write`. -/
theorem transportWriteAppendsPrefix : Obligations.TransportWriteAppendsPrefix := by
  unfold Obligations.TransportWriteAppendsPrefix
  intro s bytes c n s1
  have hexec : exec (.opTWrite bytes) s = finish ((tWrite bytes s).andThen fun r s =>
      match r with
      | .count c => .ok (.written c) s
      | .error => .ok .transportError s) := rfl
  refine ⟨fun hr => ?_, fun hr => ?_⟩
  · rw [hexec, tWrite_completes bytes s hr]
    change _ = Host.Outcome.next ((s.wrote bytes).setResult (some (.ok
      (if (s.choiceAt 0).error then .transportError else .written n))))
    cases (s.choiceAt 0).error <;> rfl
  · rw [hexec, tWrite_reset bytes s hr]
    rfl

/-- Settles O12: the two ends of `T.read`. -/
theorem transportReadTakesFront : Obligations.TransportReadTakesFront := by
  unfold Obligations.TransportReadTakesFront
  intro s n t c k s1
  have hexec : exec (.opTRead n t) s = finish ((tRead n t s).andThen fun r s =>
      match r with
      | .bytes b => .ok (.received b) s
      | .error => .ok .transportError s) := rfl
  refine ⟨fun hr => ?_, fun hr => ?_⟩
  · rw [hexec, tRead_completes n t s hr]
    change _ = Host.Outcome.next ((s.didRead n t).setResult (some (.ok
      (if (s.choiceAt 0).error then .transportError else .received (s.taken n)))))
    cases (s.choiceAt 0).error <;> rfl
  · rw [hexec, tRead_reset n t s hr]
    rfl

/-- Settles O13: `T.flush` ends in the flushed state, or a reset lands there. -/
theorem transportFlushEmptiesIn : Obligations.TransportFlushEmptiesIn := by
  unfold Obligations.TransportFlushEmptiesIn
  intro s s1
  change (_ → finish ((tFlush s).andThen _) = _) ∧ (_ → finish ((tFlush s).andThen _) = _)
  refine ⟨fun hr => ?_, fun hr => ?_⟩
  · rw [tFlush, State.choice_eq, hr]
    rfl
  · rw [tFlush, State.choice_eq, hr]
    rfl

/-- The five baud selectors, named (R10, R24). -/
theorem legalBaud_iff (m : Nat) :
    legalBaud m = true ↔ m = 1 ∨ m = 2 ∨ m = 4 ∨ m = 6 ∨ m = 12 := by
  simp [legalBaud, or_assoc]

/-- Settles O14: the three ends of `T.reconfigure_speed`. -/
theorem reconfigureSetsTheSpeed : Obligations.ReconfigureSetsTheSpeed := by
  unfold Obligations.ReconfigureSetsTheSpeed
  intro s m c s1
  have hexec : exec (.opTReconfigureSpeed m) s = finish ((tReconfigure m s).andThen fun done s =>
      .ok (if done then .done else .transportError) s) := rfl
  rw [hexec]
  refine ⟨fun hr he => ⟨s.speedFor m, fun hm => s.speedFor_legal ((legalBaud_iff m).2 hm), ?_⟩,
    fun hr he => ?_, fun hr => ?_⟩
  · rw [tReconfigure_done m s hr he]
    simp only [s1, c, he]
    rfl
  · rw [tReconfigure_error m s hr he]
    simp only [s1, c, he]
    rfl
  · rw [tReconfigure_reset m s hr]
    rfl

/-! ### SEND_FRAME -/

/-- The state after SEND_FRAME's write, whatever the transport reports (R155). -/
def State.wroteFrame (s : State) (frame : List Byte) : State := (s.fillTx frame).wrote frame

theorem sendTo_completes (kind : Kind) (payload : List Byte) (addr : Bytes4) (s : State)
    (hf : s.fits payload) (hr : (s.choiceAt 0).reset = false) :
    let frame := encodeFrame s.params kind payload addr
    sendTo kind payload addr s =
      if (s.choiceAt 0).error then .raise .writeFailure (s.wroteFrame frame)
      else if min (s.choiceAt 0).count frame.length < frame.length then
        .raise .partialWrite (s.wroteFrame frame)
      else .ok () (s.wroteFrame frame) := by
  intro frame
  rw [sendTo_eq kind payload addr s hf]
  dsimp only
  rw [tWrite_completes _ (s.fillTx _) hr, Res.andThen_ok, State.choiceAt_fillTx]
  cases (s.choiceAt 0).error <;> rfl

theorem sendTo_reset (kind : Kind) (payload : List Byte) (addr : Bytes4) (s : State)
    (hf : s.fits payload) (hr : (s.choiceAt 0).reset = true) :
    sendTo kind payload addr s =
      .reset (s.wroteFrame (encodeFrame s.params kind payload addr)) := by
  rw [sendTo_eq kind payload addr s hf]
  dsimp only
  rw [tWrite_reset _ (s.fillTx _) hr]
  rfl

/-- Settles O15: the ends of SEND_FRAME without a reset. -/
theorem sendFrameOutcomes : Obligations.SendFrameOutcomes := by
  unfold Obligations.SendFrameOutcomes
  intro s kind payload hmax h16 c frame n s1 run
  have hrun : run = finish ((sendTo kind payload s.addr s).andThen fun _ s => .ok .done s) := rfl
  rw [hrun]
  refine ⟨fun hr he hn => ?whole, fun hr he => ?error, fun hr he hn => ?cut⟩
  all_goals rw [sendTo_completes kind payload s.addr s ⟨hmax, h16⟩ hr]
  case whole =>
    rw [if_neg (by simp [c] at he; simp [he]), if_neg (Nat.not_lt.2 (Nat.le_of_eq hn.symm))]
    rfl
  case error =>
    rw [if_pos he]
    rfl
  case cut =>
    rw [if_neg (by simp [c] at he; simp [he]), if_pos hn]
    rfl

/-- Settles O60: what a reset finds done in SEND_FRAME's write and in the abort action's flush. -/
theorem resetInsideSendOrFlush : Obligations.ResetInsideSendOrFlush := by
  unfold Obligations.ResetInsideSendOrFlush
  intro s hr c
  refine ⟨fun kind payload hmax h16 => ?send, fun e he => ?flush⟩
  case send =>
    change finish ((sendTo kind payload s.addr s).andThen _) = _
    rw [sendTo_reset kind payload s.addr s ⟨hmax, h16⟩ hr]
    rfl
  case flush =>
    obtain ⟨hf, -⟩ | ⟨-, hn, -⟩ | ⟨-, -, htake⟩ := takeError_cases e s
    · simp [he] at hf
    · simp [State.choice_eq, hr] at hn
    · exact htake

/-- Settles O30: a Command frame is SEND_FRAME to the address it carries, here let through whole. -/
theorem commandFrameIsSent : Obligations.CommandFrameIsSent := by
  unfold Obligations.CommandFrameIsSent
  intro s a len cks payload hidle hmax h16 hpass frame
  change whenIdle s (finish ((sendTo .command payload a s).andThen _)) = _
  rw [whenIdle_idle _ _ hidle, sendTo_passes .command payload a s ⟨hmax, h16⟩ hpass]
  rfl

/-! ### RECV_FRAME -/

/-- The end of RECV_FRAME's read, with no reset: three errors, or a whole buffer to be checked (R156). -/
theorem recvFrame_completes (accept : List Kind) (expected t : Nat) (s : State)
    (hr : (s.choiceAt 0).reset = false) :
    let N := headerSize + expected
    recvFrame accept expected t s =
      if (s.choiceAt 0).error then .raise .readFailure (s.didRead N t)
      else if (s.taken N).length = 0 then .raise .notFound (s.didRead N t)
      else if (s.taken N).length < N then .raise .shortRead (s.didRead N t)
      else if ReceivableLength expected then
        acceptFrame (s.taken N) accept expected ((s.didRead N t).fillRx (s.taken N))
      else acceptUnsized (s.taken N) accept expected (s.didRead N t) := by
  intro N
  by_cases he : ReceivableLength expected
  · rw [recvFrame_eq accept expected t s he, tRead_completes _ _ _ hr, if_pos he]
    cases (s.choiceAt 0).error <;> rfl
  · rw [recvFrame_unsized accept expected t s he, tRead_completes _ _ _ hr, if_neg he]
    cases (s.choiceAt 0).error <;> rfl

theorem recvFrame_reset (accept : List Kind) (expected t : Nat) (s : State)
    (hr : (s.choiceAt 0).reset = true) :
    recvFrame accept expected t s = .reset (s.didRead (headerSize + expected) t) := by
  rw [recvFrame, tRead_reset _ _ _ hr]
  rfl

theorem validateHeader_eq_none_iff (p : Params) (addr : Bytes4) (buf : List Byte) (accept : List Kind)
    (expected : Nat) :
    validateHeader p addr buf accept expected = none ↔
      startMatches p buf = true ∧ addressMatches addr buf = true ∧
        kindAccepted p accept buf = true ∧ lengthMatches expected buf = true := by
  unfold validateHeader
  split_ifs <;> simp_all

/-- What the checks make of a whole buffer: the checksum's verdict first, then the header's (R146). -/
theorem judgeFrame_bad (payload buf : List Byte) (accept : List Kind) (expected : Nat) (s : State) :
    judgeFrame false payload buf accept expected s = .raise .checksumMismatch s := rfl

theorem judgeFrame_badHeader {payload buf : List Byte} {accept : List Kind} {expected : Nat}
    {s : State} {e : ErrorKind}
    (h : validateHeader s.params s.addr buf accept expected = some e) :
    judgeFrame true payload buf accept expected s = .raise e s := by
  simp only [judgeFrame, h, if_true]

theorem judgeFrame_good {payload buf : List Byte} {accept : List Kind} {expected : Nat} {s : State}
    (hp : s.params.ok = true) (h : validateHeader s.params s.addr buf accept expected = none) :
    ∃ k ∈ accept, byteAt buf 6 = kindByte s.params k ∧
      judgeFrame true payload buf accept expected s = .ok (k, payload) s := by
  obtain ⟨-, -, hkind, -⟩ := (validateHeader_eq_none_iff ..).1 h
  obtain ⟨k, hk, hb⟩ := (kindAccepted_iff hp accept buf).1 hkind
  refine ⟨k, hk, hb, ?_⟩
  have hof : kindOf s.params (byteAt buf 6) = some k := hb ▸ kindOf_kindByte s.params hp k
  simp only [judgeFrame, h, hof, if_true]

theorem recvFrame_error (accept : List Kind) (expected t : Nat) (s : State)
    (hr : (s.choiceAt 0).reset = false) (he : (s.choiceAt 0).error = true) :
    recvFrame accept expected t s = .raise .readFailure (s.didRead (headerSize + expected) t) := by
  rw [recvFrame_completes accept expected t s hr, if_pos he]

theorem recvFrame_notFound (accept : List Kind) (expected t : Nat) (s : State)
    (hr : (s.choiceAt 0).reset = false) (he : (s.choiceAt 0).error = false)
    (h0 : (s.taken (headerSize + expected)).length = 0) :
    recvFrame accept expected t s = .raise .notFound (s.didRead (headerSize + expected) t) := by
  rw [recvFrame_completes accept expected t s hr, if_neg (ne_true_of_eq_false he), if_pos h0]

theorem recvFrame_short (accept : List Kind) (expected t : Nat) (s : State)
    (hr : (s.choiceAt 0).reset = false) (he : (s.choiceAt 0).error = false)
    (h0 : 0 < (s.taken (headerSize + expected)).length)
    (hlt : (s.taken (headerSize + expected)).length < headerSize + expected) :
    recvFrame accept expected t s = .raise .shortRead (s.didRead (headerSize + expected) t) := by
  rw [recvFrame_completes accept expected t s hr, if_neg (ne_true_of_eq_false he),
    if_neg (Nat.ne_of_gt h0), if_pos hlt]

/-- A read that brings all that was asked for leaves the checks to do. -/
theorem recvFrame_whole (accept : List Kind) (expected t : Nat) (s : State)
    (hr : (s.choiceAt 0).reset = false) (he : (s.choiceAt 0).error = false)
    (hlen : (s.taken (headerSize + expected)).length = headerSize + expected) :
    let N := headerSize + expected
    recvFrame accept expected t s =
      if ReceivableLength expected then
        acceptFrame (s.taken N) accept expected ((s.didRead N t).fillRx (s.taken N))
      else acceptUnsized (s.taken N) accept expected (s.didRead N t) := by
  intro N
  have h0 : ¬ (s.taken N).length = 0 := by rw [hlen]; unfold headerSize; omega
  rw [recvFrame_completes accept expected t s hr, he, if_neg Bool.false_ne_true, if_neg h0,
    if_neg (Nat.not_lt.2 (Nat.le_of_eq hlen.symm))]

/-- `RXBUF` takes as much of a buffer as it holds, and `RXLEN` lies within it (log entry 23). -/
theorem State.fillRx_or_overfillRx (s : State) (b : List Byte) :
    ∃ n ≤ 267, (b.length ≤ 267 → n = b.length) ∧
      (if b.length ≤ rxCapacity then s.fillRx b else s.overfillRx b) =
        { s with rxbuf := s.rxbuf.writeBytes 0 (b.take 267), rxlen := n } := by
  by_cases h : b.length ≤ 267
  · refine ⟨b.length, h, fun _ => rfl, ?_⟩
    rw [List.take_of_length_le h]
    exact if_pos h
  · exact ⟨min (Config.freeRxlen s.envIndex) 267, Nat.min_le_right _ _, fun h' => absurd h' h,
      if_neg h⟩

/-- Settles O16: the ends of RECV_FRAME, in the order of R260. -/
theorem recvFrameOutcomes : Obligations.RecvFrameOutcomes := by
  unfold Obligations.RecvFrameOutcomes
  intro s accept expected t hp c N sized b s1 s2 run
  have hrun : run = finish ((recvFrame accept expected t s).andThen
    fun kp s => .ok (.frame kp.1 kp.2) s) := rfl
  have hsized : sized → c.reset = false → c.error = false → b.length = N →
      recvFrame accept expected t s =
        judgeFrame (verifyChecksum b) (splitFrame b).payload b accept expected s2 :=
    fun hs hr he hlen => (recvFrame_whole accept expected t s hr he hlen).trans (if_pos hs)
  have hunsized : ¬ sized → c.reset = false → c.error = false → b.length = N →
      recvFrame accept expected t s =
        judgeFrame (Config.freeVerdict s1.envIndex) (Config.freePayload s1.envIndex) b accept
          expected (if b.length ≤ rxCapacity then s1.fillRx b else s1.overfillRx b) :=
    fun hs hr he hlen => (recvFrame_whole accept expected t s hr he hlen).trans (if_neg hs)
  rw [hrun]
  refine ⟨fun hr he => ?error, fun hr he h0 => ?none, fun hr he h0 hlt => ?short,
    fun hs hr he hlen hv => ?badChecksum, fun hs hr he hlen hv e hh => ?badHeader,
    fun hs hr he hlen hv hh => ?good, fun hs hr he hlen => ?unsized, fun hr => ?reset⟩
  case error => rw [recvFrame_error accept expected t s hr he]; rfl
  case none => rw [recvFrame_notFound accept expected t s hr he h0]; rfl
  case short => rw [recvFrame_short accept expected t s hr he h0 hlt]; rfl
  case badChecksum => rw [hsized hs hr he hlen, hv, judgeFrame_bad]; rfl
  case badHeader => rw [hsized hs hr he hlen, hv, judgeFrame_badHeader (s := s2) hh]; rfl
  case good =>
    obtain ⟨k, hk, hb, hjudge⟩ := judgeFrame_good (payload := (splitFrame b).payload) (s := s2) hp hh
    refine ⟨k, hk, hb, ?_⟩
    have hpay : (splitFrame b).payload = (b.drop 9).take (expected - 2) := by
      simp only [splitFrame, headerSize, checksumSize, hlen]
      congr 1
      omega
    rw [hsized hs hr he hlen, hv, hjudge, hpay]
    rfl
  case unsized =>
    obtain ⟨n, hn, hnlen, hfill⟩ := s1.fillRx_or_overfillRx b
    refine ⟨n, hn, hnlen, ?_⟩
    intro s3
    have hs3 : (if b.length ≤ rxCapacity then s1.fillRx b else s1.overfillRx b) = s3 := hfill
    rw [hunsized hs hr he hlen, hs3]
    cases Config.freeVerdict s1.envIndex with
    | false => exact .inl rfl
    | true =>
      refine .inr ?_
      split
      · rename_i e hh
        rw [judgeFrame_badHeader (s := s3) hh]
        rfl
      · rename_i hh
        obtain ⟨k, hk, hb, hjudge⟩ := judgeFrame_good (s := s3) hp hh
        exact ⟨k, hk, hb, _, by rw [hjudge]; rfl⟩
  case reset =>
    rw [recvFrame_reset accept expected t s hr]
    rfl

/-! ### EXCHANGE -/

/-- What follows SEND_FRAME in an exchange. -/
def receiveAnswer (op : CmdOp) (s : State) : Res (Byte × List Byte) :=
  (recvFrame acceptAck (ackLen s.params op + checksumSize) (Config.timeout op) s).andThen
    fun answer s =>
      match answer.2 with
      | status :: fields => .ok (status, fields) s
      | [] => .ok (Config.freeAckByte s.envIndex 0, []) s

theorem exchangeTo_eq (addr : Bytes4) (op : CmdOp) (payload : List Byte) (s : State) :
    exchangeTo addr op payload s =
      (sendTo .command payload addr s).andThen fun _ u => receiveAnswer op u := rfl

/-- Shaping the value an operation returns commutes with a change of the state it leaves. -/
theorem Res.mapState_returns {α β : Type} (r : Res α) (f : State → State) (g : α → β) :
    ((r.mapState f).andThen fun a u => .ok (g a) u) =
      (r.andThen fun a u => .ok (g a) u).mapState f := by
  cases r <;> rfl

/-- The end of an exchange's reception, next to that of RECV_FRAME issued after SEND_FRAME, which finds the
result of SEND_FRAME in the state and does not look at it. -/
theorem receiveAnswer_follows_recvFrame (op : CmdOp) (s : State) (hp : s.params.ok = true) :
    ∃ v : State,
      exec (.opRecvFrame [.acknowledge] (ackLen s.params op + 2) (Config.timeout op))
        (s.setResult (some (.ok .done))) = .next v ∧
      (∀ k st fields, v.result = some (.ok (.frame k (st :: fields))) →
        finish ((receiveAnswer op s).andThen fun sf u => .ok (.exchanged sf.1 sf.2) u) =
          .next (v.setResult (some (.ok (.exchanged st fields))))) ∧
      ((∀ k ack, v.result ≠ some (.ok (.frame k ack))) →
        finish ((receiveAnswer op s).andThen fun sf u => .ok (.exchanged sf.1 sf.2) u) = .next v) := by
  have hrange : ReceivableLength (ackLen s.params op + 2) := by
    have := (params_ok_bounds hp).2.2.2 op
    unfold ReceivableLength
    omega
  have hexec : exec (.opRecvFrame [.acknowledge] (ackLen s.params op + 2) (Config.timeout op))
      (s.setResult (some (.ok .done))) =
      finish ((recvFrame acceptAck (ackLen s.params op + 2) (Config.timeout op) s).andThen
        fun kp u => .ok (.frame kp.1 kp.2) u) := by
    change finish ((recvFrame acceptAck (ackLen s.params op + 2) (Config.timeout op)
      (s.setResult (some (.ok .done)))).andThen _) = _
    rw [recvFrame_setResult _ _ _ _ _ hrange, Res.mapState_returns, finish_setResult]
  have hends := recvFrame_ends (Effect.refl s 0 0) acceptAck (ackLen s.params op + 2)
    (Config.timeout op)
  rw [hexec, receiveAnswer, show ackLen s.params op + checksumSize = ackLen s.params op + 2 from rfl]
  cases hx : recvFrame acceptAck (ackLen s.params op + 2) (Config.timeout op) s with
  | ok answer u =>
    rw [hx] at hends
    obtain ⟨k, _ | ⟨st, fields⟩⟩ := answer
    · have hlen : 0 = ackLen s.params op + 2 - 2 := hends.2.2 hrange
      have := (params_ok_bounds hp).2.2.2 op
      omega
    · refine ⟨_, rfl, fun k' st' fields' h => ?_, fun h => absurd rfl (h k (st :: fields))⟩
      obtain ⟨-, rfl, rfl⟩ : k = k' ∧ st = st' ∧ fields = fields' := by simpa using h
      rfl
  | raise e u =>
    refine ⟨_, rfl, fun k st fields h => ?_, fun _ => rfl⟩
    obtain hr | hr := takeError_result e u <;> simp [hr] at h
  | reset u => exact ⟨_, rfl, fun k st fields h => by simp at h, fun _ => rfl⟩
  | fault f => rw [hx] at hends; exact hends.elim
  | refused q => rw [hx] at hends; exact hends.elim

/-- Settles O17: after SEND_FRAME an exchange ends as RECV_FRAME does, but for the status byte set apart. -/
theorem exchangeIsOneSendAndOneReceive : Obligations.ExchangeIsOneSendAndOneReceive := by
  unfold Obligations.ExchangeIsOneSendAndOneReceive
  intro s op payload hp hmax
  have hfits : s.fits payload := ⟨hmax, hmax.trans (params_ok_bounds hp).1⟩
  have hsend : exec (.opSendFrame .command payload) s =
      finish ((sendTo .command payload s.addr s).andThen fun _ s => .ok .done s) := rfl
  have hexchange : exec (.opExchange op payload) s =
      finish ((sendTo .command payload s.addr s).andThen fun _ u =>
        (receiveAnswer op u).andThen fun sf u => .ok (.exchanged sf.1 sf.2) u) := by
    change finish ((exchangeTo s.addr op payload s).andThen _) = _
    rw [exchangeTo_eq, Res.andThen_assoc]
  have hends := sendTo_ends .command payload s.addr s 0
  rw [hsend, hexchange]
  cases hx : sendTo .command payload s.addr s with
  | ok a u =>
    rw [hx] at hends
    refine ⟨_, rfl, fun h => absurd rfl h, fun _ => ?_⟩
    have hparams : u.params = s.params := hends.params
    have hp' : u.params.ok = true := hparams ▸ hp
    exact hparams ▸ receiveAnswer_follows_recvFrame op u hp'
  | raise e u =>
    refine ⟨_, rfl, fun _ => rfl, fun h => ?_⟩
    obtain hr | hr := takeError_result e u <;> simp [hr] at h
  | reset u => exact ⟨_, rfl, fun _ => rfl, fun h => by simp at h⟩
  | fault f => rw [hx] at hends; exact hends.elim
  | refused q => rw [hx] at hends; exact absurd hfits hends

/-- Settles O18: an exchange that goes well ends in `afterExchange`. -/
theorem exchangeReturnsStatusAndFields : Obligations.ExchangeReturnsStatusAndFields := by
  unfold Obligations.ExchangeReturnsStatusAndFields
  intro s op payload status fields hp hmax hlen hans
  obtain ⟨hmax16, -, -, hack⟩ := params_ok_bounds hp
  have h256 : fields.length < 256 := by have := hack op; omega
  change finish ((exchangeTo s.addr op payload s).andThen _) = _
  rw [exchangeTo_answered s.addr op payload status fields s hp ⟨hmax, hmax.trans hmax16⟩ hlen h256 hans]
  rfl

end Sys2Proof.Machine
end

section
/-! PROOFS. The commands, continued (spec/43_commands.md). -/

namespace Sys2Proof.Machine

/-! ### The instructions in `Idle` -/

theorem exec_opReadSysPara_idle (s : State) (h : s.fsm = .idle) :
    exec .opReadSysPara s = finish (readSysParaCommand s.addr s) := whenIdle_idle s _ h

theorem exec_opTemplateNum_idle (s : State) (h : s.fsm = .idle) :
    exec .opTemplateNum s = finish (templateNumCommand s.addr s) := whenIdle_idle s _ h

theorem exec_opSetBaud_idle (sel : Nat) (s : State) (h : s.fsm = .idle) :
    exec (.opSetBaud sel) s = finish (setBaudCommand s.addr sel s) := whenIdle_idle s _ h

theorem exec_opSetDatalen_idle (sel : Nat) (s : State) (h : s.fsm = .idle) :
    exec (.opSetDatalen sel) s = finish (setDatalenCommand s.addr sel s) := whenIdle_idle s _ h

/-- Settles O59: a row and its operation are one command to one address. -/
theorem requestRowsRunAsTheirOperations : Obligations.RequestRowsRunAsTheirOperations := by
  unfold Obligations.RequestRowsRunAsTheirOperations
  exact fun s pw v len cks payload =>
    ⟨rfl, rfl, rfl, rfl, rfl, rfl, rfl, fun hidle => whenIdle_idle s _ hidle⟩

/-- Settles O27: SET_ADDR is one update and no call. -/
theorem setAddrWritesAddrOnly : Obligations.SetAddrWritesAddrOnly := by
  unfold Obligations.SetAddrWritesAddrOnly
  exact fun s a hidle => whenIdle_idle s _ hidle

/-! ### Operands outside their legal set -/

theorem legalDatalen_iff (sel : Nat) : legalDatalen sel = true ↔ sel ≤ 3 := by
  simp [legalDatalen]

/-- A command that checks its operand first, given an illegal one in `Idle` (R180). -/
theorem finish_rejected (s : State) (hidle : s.fsm = .idle) :
    finish (.raise .invalidParameter s) = .next (s.setResult (some (.err .invalidParameter))) := by
  rw [finish_raise, takeError_invalidParameter s hidle]

theorem setBaudCommand_illegal (addr : Bytes4) {sel : Nat} (s : State)
    (h : ¬ legalBaud sel = true) : setBaudCommand addr sel s = .raise .invalidParameter s := if_neg h

theorem setSecurityCommand_illegal (addr : Bytes4) {level : Nat} (s : State)
    (h : ¬ legalSecurity level = true) :
    setSecurityCommand addr level s = .raise .invalidParameter s := if_neg h

theorem setDatalenCommand_illegal (addr : Bytes4) {sel : Nat} (s : State)
    (h : ¬ legalDatalen sel = true) :
    setDatalenCommand addr sel s = .raise .invalidParameter s := if_neg h

/-- The legal selectors of SET_BAUD's request row, as bytes. -/
theorem legalBaud_byte_iff (v : Byte) :
    legalBaud v.toNat = true ↔ v = 1#8 ∨ v = 2#8 ∨ v = 4#8 ∨ v = 6#8 ∨ v = 12#8 := by
  simp [legalBaud_iff, ← BitVec.toNat_inj]

/-- Settles O28: the operand check comes before the exchange, and the consumer's before the operand's. -/
theorem rejectedBeforeAnyTransportCall : Obligations.RejectedBeforeAnyTransportCall := by
  unfold Obligations.RejectedBeforeAnyTransportCall
  intro s n a v cks hidle bad
  have hbad := finish_rejected s hidle
  refine ⟨fun h => ?baud, fun h => ?security, fun h => ?datalen, fun h => ?baudRow,
    fun h => ?securityRow, fun h => ?datalenRow, fun hc h => ?upload, fun hc => ?notReady⟩
  all_goals refine (whenIdle_idle s _ hidle).trans ?_
  case baud =>
    rw [setBaudCommand_illegal _ _ (mt (legalBaud_iff n).1 h)]
    exact hbad
  case security =>
    rw [setSecurityCommand_illegal _ _ (mt (legalSecurity_iff n).1 (by omega))]
    exact hbad
  case datalen =>
    rw [setDatalenCommand_illegal _ _ (mt (legalDatalen_iff n).1 (by omega))]
    exact hbad
  case baudRow =>
    rw [setBaudCommand_illegal _ _ (mt (legalBaud_byte_iff v).1 h)]
    exact hbad
  case securityRow =>
    rw [setSecurityCommand_illegal _ _ (mt (legalSecurity_iff v.toNat).1 (by omega))]
    exact hbad
  case datalenRow =>
    rw [setDatalenCommand_illegal _ _ (mt (legalDatalen_iff v.toNat).1 (by omega))]
    exact hbad
  case upload =>
    rw [openUpload, State.consumerRegistered_eq, if_pos hc,
      if_neg (mt (legalDatalen_iff n).1 (by omega)), finishRun_raise,
      takeError_invalidParameter s hidle]
    rfl
  case notReady =>
    rw [openUpload, State.consumerRegistered_eq, if_neg (ne_true_of_eq_false hc), finishRun_raise]
    change Host.Outcome.next ((s.setFsm .idle).setResult _) = _
    rw [← hidle]
    rfl

/-! ### Where the exchange goes well -/

/-- A command goes on from the state its exchange leaves, with the status and the other fields. -/
theorem exchangeTo_answered_andThen {α : Type} (addr : Bytes4) (op : CmdOp) (payload : List Byte)
    {status : Byte} {fields : List Byte} {s : State} {k : Byte × List Byte → State → Res α}
    (hp : s.params.ok = true) (hm : payload.length ≤ s.params.maxPayload)
    (hn : fields.length + 1 = ackLen s.params op)
    (h : s.answered (payload.length + 11) (s.ackFrame (status :: fields)) = true) :
    (exchangeTo addr op payload s).andThen k =
      k (status, fields) (s.afterExchange (encodeFrame s.params .command payload addr)
        (s.ackFrame (status :: fields)) (Config.timeout op)) := by
  obtain ⟨h16, -, -, hack⟩ := params_ok_bounds hp
  have h256 : fields.length < 256 := by
    have := hack op
    omega
  rw [exchangeTo_answered addr op payload status fields s hp ⟨hm, hm.trans h16⟩ hn h256 h,
    Res.andThen_ok]

/-- Settles O20: a status command returns the status and ends in `afterExchange`. -/
theorem statusCommandsWriteBuffersOnly : Obligations.StatusCommandsWriteBuffersOnly := by
  unfold Obligations.StatusCommandsWriteBuffersOnly
  intro s a pw cks level op status fields hp hidle hmax hn ends
  have key : ∀ (payload : List Byte) (dest : Bytes4), payload.length ≤ 5 →
      s.answered (payload.length + 11) (s.ackFrame (status :: fields)) = true →
      whenIdle s (finish (statusCommand dest op payload s)) =
        .next ((s.afterExchange (encodeFrame s.params .command payload dest)
          (s.ackFrame (status :: fields)) (Config.timeout op)).setResult
            (some (.ok (.status status)))) := fun payload dest hlen hans => by
    rw [whenIdle_idle s _ hidle, statusCommand,
      exchangeTo_answered_andThen dest op payload hp (hlen.trans hmax) hn hans, finish_ok]
  refine ⟨?vfyPwd, ?genImage, ?setSecurity⟩
  case vfyPwd =>
    rintro rfl hans t
    exact ⟨key _ _ (Nat.le_refl 5) hans, key _ _ (Nat.le_refl 5) hans⟩
  case genImage =>
    rintro rfl hans t
    exact ⟨key _ _ (by simp) hans, key _ _ (by simp) hans⟩
  case setSecurity =>
    rintro rfl h1 h5 hans t
    have hlegal := (legalSecurity_iff level.toNat).2 ⟨h1, h5⟩
    have hrow : ∀ dest, setSecurityCommand dest level.toNat s =
        statusCommand dest .setSecurity [s.params.icSetSysPara, s.params.pnSecurity, level] s :=
      fun dest => by
        rw [setSecurityCommand, if_pos hlegal, setParamPayload, BitVec.ofNat_toNat,
          BitVec.setWidth_eq]
    exact ⟨(congrArg (fun r => whenIdle s (finish r)) (hrow _)).trans (key _ _ (by simp) hans),
      (congrArg (fun r => whenIdle s (finish r)) (hrow _)).trans (key _ _ (by simp) hans)⟩

/-- A field of the body as the number its two bytes are (R54, R90). -/
theorem be16_byteAt_toNat (bs : List Byte) (i : Nat) :
    (be16 (byteAt bs i) (byteAt bs (i + 1))).toNat =
      (bs.getD i 0#8).toNat * 256 + (bs.getD (i + 1) 0#8).toNat := be16_toNat _ _

/-- Settles O21: the snapshot's fields are the body's bytes at the offsets of R90. -/
theorem readSysParaReturnsSnapshot : Obligations.ReadSysParaReturnsSnapshot := by
  unfold Obligations.ReadSysParaReturnsSnapshot
  intro s a cks status body hp hidle hmax hbody hans
  have hdev : [byteAt body 8, byteAt body 9, byteAt body 10, byteAt body 11] =
      (body.drop 8).take 4 := by
    match body, hbody with
    | [_, _, _, _, _, _, _, _, _, _, _, _, _, _, _, _], _ => rfl
  refine ⟨SysParams.ofBytes body, ⟨be16_byteAt_toNat body 0, be16_byteAt_toNat body 2,
    be16_byteAt_toNat body 4, be16_byteAt_toNat body 6, be16_byteAt_toNat body 12,
    be16_byteAt_toNat body 14, hdev⟩, ?_⟩
  intro t
  have key : ∀ dest, whenIdle s (finish (readSysParaCommand dest s)) = .next (t dest) :=
    fun dest => by
      rw [whenIdle_idle s _ hidle, readSysParaCommand,
        exchangeTo_answered_andThen dest .readSysPara [_] hp hmax (by rw [hbody]; rfl) hans,
        State.afterExchange_params]
      simp only [t]
      split <;> rfl
  exact ⟨key _, key _⟩

/-- Settles O22: the count is the first two bytes after the status. -/
theorem templateNumReturnsCount : Obligations.TemplateNumReturnsCount := by
  unfold Obligations.TemplateNumReturnsCount
  intro s a cks status h l rest hp hidle hmax hlen hans
  refine ⟨be16 h l, be16_toNat h l, ?_⟩
  intro t
  have key : ∀ dest, whenIdle s (finish (templateNumCommand dest s)) = .next (t dest) :=
    fun dest => by
      rw [whenIdle_idle s _ hidle, templateNumCommand,
        exchangeTo_answered_andThen dest .templateNum [_]
          (fields := h :: l :: rest) hp hmax hlen hans,
        State.afterExchange_params]
      simp only [t]
      split <;> rfl
  exact ⟨key _, key _⟩

/-- SET_DATALEN with a legal selector, its payload written with the selector's byte (R94, R188). -/
theorem setDatalenCommand_legal (addr : Bytes4) {sel : Nat} (s : State) (h : sel ≤ 3) :
    setDatalenCommand addr sel s =
      (exchangeTo addr .setDatalen
        [s.params.icSetSysPara, s.params.pnDatalen, BitVec.ofNat 8 sel] s).andThen fun sf s =>
          if sf.1 = s.params.stSuccess then .ok (.status sf.1) (s.setDlenSel sel)
          else .ok (.status sf.1) s := if_pos ((legalDatalen_iff sel).2 h)

/-- The same for SET_BAUD (R186). -/
theorem setBaudCommand_legal (addr : Bytes4) {sel : Nat} (s : State) (h : legalBaud sel = true) :
    setBaudCommand addr sel s =
      (exchangeTo addr .setBaud
        [s.params.icSetSysPara, s.params.pnBaud, BitVec.ofNat 8 sel] s).andThen fun sf s =>
          if sf.1 = s.params.stSuccess then
            (tReconfigure sel (s.setBaudSel sel)).andThen fun done s =>
              if done then .ok (.status sf.1) s else .raise .reconfigureFailure s
          else .ok (.status sf.1) s := if_pos h

/-- Settles O26: the selector's two bits are stored exactly on a success status. -/
theorem setDatalenRecordsSelector : Obligations.SetDatalenRecordsSelector := by
  unfold Obligations.SetDatalenRecordsSelector
  intro s a cks sel status fields hp hidle hmax hsel hlen hans t
  have key : ∀ dest, whenIdle s (finish (setDatalenCommand dest sel.toNat s)) = .next (t dest) :=
    fun dest => by
      rw [whenIdle_idle s _ hidle, setDatalenCommand_legal dest s hsel, BitVec.ofNat_toNat,
        BitVec.setWidth_eq, exchangeTo_answered_andThen dest .setDatalen [_, _, _] hp hmax hlen hans,
        State.afterExchange_params]
      simp only [t]
      split <;> rfl
  exact ⟨key _, key _⟩

/-- A reconfiguration right after an exchange is its third call. -/
theorem State.afterExchange_reconfigured (s : State) (fr an : List Byte) (t sel : Nat) (v : LineSpeed)
    (c : Call) :
    ((((s.afterExchange fr an t).setBaudSel sel).beginCall.setSpeed v).record c) =
      { s.afterExchange fr an t with
        baudSel := BitVec.ofNat 4 sel, speed := v
        inq := (s.afterExchange fr an t).inq ++ (s.choiceAt 2).arrived
        env := s.env.drop 3, envIndex := s.envIndex + 3
        calls := (s.afterExchange fr an t).calls ++ [c] } := by
  have henv : (s.env.drop 2).drop 1 = s.env.drop 3 := List.drop_drop ..
  rw [← henv, ← s.choiceAt_afterExchange fr an t 0]
  rfl

/-- Settles O23: after a success status the reconfiguration is the third call, here let through. -/
theorem setBaudSwitchesAfterAcknowledgement : Obligations.SetBaudSwitchesAfterAcknowledgement := by
  unfold Obligations.SetBaudSwitchesAfterAcknowledgement
  intro s a cks sel status fields hp hidle hmax hsel hlen hans s1 t hthird
  have hlegal := (legalBaud_byte_iff sel).2 hsel
  have key : ∀ dest, whenIdle s (finish (setBaudCommand dest sel.toNat s)) = .next (t dest) :=
    fun dest => by
      rw [whenIdle_idle s _ hidle, setBaudCommand_legal dest s hlegal, BitVec.ofNat_toNat,
        BitVec.setWidth_eq, exchangeTo_answered_andThen dest .setBaud [_, _, _] hp hmax hlen hans,
        State.afterExchange_params]
      by_cases hst : status = s.params.stSuccess
      · obtain ⟨herr, hreset⟩ := hthird hst
        rw [if_pos hst, tReconfigure_done _ _ (by simpa using hreset) (by simpa using herr),
          State.speedFor_legal _ hlegal, State.afterExchange_reconfigured, BitVec.ofNat_toNat]
        simp only [t, if_pos hst]
        rfl
      · rw [if_neg hst]
        simp only [t, if_neg hst]
        rfl
  exact ⟨key _, key _⟩

/-! ### In every environment -/

/-- What an exchange that completes leaves alone, and the size of what it returns (R157). -/
theorem exchangeTo_ok {addr : Bytes4} {op : CmdOp} {payload : List Byte} {s u : State} {st : Byte}
    {fields : List Byte} (hp : s.params.ok = true)
    (hx : exchangeTo addr op payload s = .ok (st, fields) u) :
    u.params = s.params ∧ u.dlenSel = s.dlenSel ∧ fields.length + 1 = ackLen s.params op := by
  have h := exchangeTo_ends addr op payload s
  rw [hx] at h
  exact ⟨h.1.params, h.1.dlenSel, h.2 (legalAckLen_ackLen hp op)⟩

/-- OP.EXCHANGE leaves `DLEN_SEL` alone, unless a reset lands in it, which leaves no result (R20, R290). -/
theorem exec_opExchange_dlenSel {op : CmdOp} {payload : List Byte} {s u : State}
    (h : exec (.opExchange op payload) s = .next u) :
    (u.result ≠ none → u.dlenSel = s.dlenSel) ∧ (u.result = none → u.dlenSel = s.params.dlenReset) := by
  have hexec : exec (.opExchange op payload) s = finish ((exchangeTo s.addr op payload s).andThen
      fun sf s => .ok (.exchanged sf.1 sf.2) s) := rfl
  have hends := Res.ends_andThen (k := fun sf u => .ok (OpValue.exchanged sf.1 sf.2) u)
    (ok' := fun _ u => Effect s u 2 (payload.length + 11) (min (ackLen s.params op + 11) rxCapacity))
    (exchangeTo_ends s.addr op payload s) fun sf u hu => hu.1
  rw [hexec] at h
  obtain ⟨v, t, ht, hf⟩ | ⟨e, t, ht, hf⟩ | ⟨t, ⟨ht, -⟩, hf⟩ | ⟨-, q, hf⟩ := finish_ends hends <;>
    rw [hf] at h <;> cases h
  · exact ⟨fun _ => ht.dlenSel, fun hn => by simp at hn⟩
  · obtain ⟨hr, heff⟩ | ⟨-, w, hw, hreset⟩ := takeError_effect ht e
    · exact ⟨fun _ => heff.dlenSel, fun hn => by simp [hr] at hn⟩
    · rw [hreset]
      exact ⟨fun hn => absurd rfl hn, fun _ => by rw [State.resetEvent_dlenSel, hw.params]⟩
  · exact ⟨fun hn => absurd rfl hn, fun _ => by rw [State.resetEvent_dlenSel, ht.params]⟩

/-- Settles O25: the exchange leaves `DLEN_SEL` alone, and what follows it stores the selector on success. -/
theorem setDatalenFollowsItsExchange : Obligations.SetDatalenFollowsItsExchange := by
  unfold Obligations.SetDatalenFollowsItsExchange
  intro s sel hp hidle hmax
  refine ⟨fun hsel => ?legal, fun hsel => ?illegal⟩
  case illegal =>
    rw [exec_opSetDatalen_idle sel s hidle,
      setDatalenCommand_illegal _ _ (mt (legalDatalen_iff sel).1 (by omega)),
      finish_rejected s hidle]
    rfl
  case legal =>
    rw [exec_opSetDatalen_idle sel s hidle, setDatalenCommand_legal s.addr s hsel]
    obtain ⟨st, f, u, hx, hex⟩ | ⟨u, hno, hex, hk⟩ := exec_opExchange_cases .setDatalen
      [s.params.icSetSysPara, s.params.pnDatalen, BitVec.ofNat 8 sel] s hp hmax
    · refine ⟨_, hex, fun st' f' h => ?_, fun h => absurd rfl (h st f), exec_opExchange_dlenSel hex⟩
      obtain ⟨rfl, rfl⟩ : st = st' ∧ f = f' := by simpa using h
      obtain ⟨hparams, hdlen, -⟩ := exchangeTo_ok hp hx
      rw [hx, Res.andThen_ok, hparams, ← hdlen]
      split <;> rfl
    · exact ⟨u, hex, fun st f h => absurd h (hno st f), fun _ => hk _, exec_opExchange_dlenSel hex⟩

/-- Settles O58: what follows the exchange only reads the fields, where the status is success. -/
theorem snapshotCommandsFollowTheirExchange : Obligations.SnapshotCommandsFollowTheirExchange := by
  unfold Obligations.SnapshotCommandsFollowTheirExchange
  intro s hp hidle hmax
  rw [exec_opReadSysPara_idle s hidle, exec_opTemplateNum_idle s hidle]
  refine ⟨?readSysPara, ?templateNum⟩
  case readSysPara =>
    obtain ⟨st, f, u, hx, hex⟩ | ⟨u, hno, hex, hk⟩ :=
      exec_opExchange_cases .readSysPara [s.params.icReadSysPara] s hp hmax
    · refine ⟨_, hex, fun st' f' h => ?_, fun h => absurd rfl (h st f)⟩
      obtain ⟨rfl, rfl⟩ : st = st' ∧ f = f' := by simpa using h
      obtain ⟨hparams, -, hlen⟩ := exchangeTo_ok hp hx
      refine ⟨Nat.succ.inj hlen, ?_⟩
      rw [readSysParaCommand, hx, Res.andThen_ok, hparams]
      split <;> rfl
    · exact ⟨u, hex, fun st f h => absurd h (hno st f), fun _ => hk _⟩
  case templateNum =>
    obtain ⟨st, f, u, hx, hex⟩ | ⟨u, hno, hex, hk⟩ :=
      exec_opExchange_cases .templateNum [s.params.icTemplateNum] s hp hmax
    · refine ⟨_, hex, fun st' f' h => ?_, fun h => absurd rfl (h st f)⟩
      obtain ⟨rfl, rfl⟩ : st = st' ∧ f = f' := by simpa using h
      obtain ⟨hparams, -, hlen⟩ := exchangeTo_ok hp hx
      have hcount : 3 ≤ ackLen s.params .templateNum := (params_ok_bounds hp).2.2.1
      obtain ⟨c1, c0, rest, rfl⟩ : ∃ c1 c0 rest, f = c1 :: c0 :: rest := by
        match f, hlen with
        | c1 :: c0 :: rest, _ => exact ⟨c1, c0, rest, rfl⟩
        | [_], hlen => simp at hlen; omega
        | [], hlen => simp at hlen; omega
      refine ⟨be16 c1 c0, be16_toNat c1 c0, by simp, ?_⟩
      rw [templateNumCommand, hx, Res.andThen_ok, hparams]
      split <;> rfl
    · exact ⟨u, hex, fun st f h => absurd h (hno st f), fun _ => hk _⟩

/-- Settles O24: after a success status the command ends as the reconfiguration does, which finds
OP.EXCHANGE's result in the state and does not look at it. -/
theorem setBaudFollowsItsExchange : Obligations.SetBaudFollowsItsExchange := by
  unfold Obligations.SetBaudFollowsItsExchange
  intro s sel hp hidle hmax hsel
  rw [exec_opSetBaud_idle sel s hidle, setBaudCommand_legal s.addr s ((legalBaud_iff sel).2 hsel)]
  obtain ⟨st, f, u, hx, hex⟩ | ⟨u, hno, hex, hk⟩ := exec_opExchange_cases .setBaud
    [s.params.icSetSysPara, s.params.pnBaud, BitVec.ofNat 8 sel] s hp hmax
  case inr =>
    exact ⟨u, hex, fun f h => absurd h (hno _ f), fun st f h => absurd h (hno st f), fun _ => hk _⟩
  case inl =>
    obtain ⟨hparams, -, -⟩ := exchangeTo_ok hp hx
    refine ⟨_, hex, fun f' h => ?success, fun st' f' h hst => ?other, fun h => absurd rfl (h st f)⟩
    case other =>
      obtain ⟨rfl, rfl⟩ : st = st' ∧ f = f' := by simpa using h
      rw [hx, Res.andThen_ok, hparams, if_neg hst]
      rfl
    case success =>
      obtain ⟨rfl, rfl⟩ : st = s.params.stSuccess ∧ f = f' := by simpa using h
      have hbaud : (BitVec.ofNat 4 sel).toNat = sel := by
        rw [BitVec.toNat_ofNat]
        omega
      have hexec : exec (.opTReconfigureSpeed sel)
          { u.setResult (some (.ok (.exchanged s.params.stSuccess f))) with
            baudSel := BitVec.ofNat 4 sel } =
          finish ((tReconfigure sel (u.setBaudSel sel)).andThen fun done s =>
            .ok (if done then .done else .transportError) s) := by
        change finish ((tReconfigure sel ((u.setBaudSel sel).setResult _)).andThen _) = _
        rw [tReconfigure_setResult, Res.mapState_returns, finish_setResult]
      rw [hexec, hx, Res.andThen_ok, hparams, if_pos rfl]
      cases hr : ((u.setBaudSel sel).choiceAt 0).reset with
      | true =>
        rw [tReconfigure_reset _ _ hr]
        exact ⟨_, rfl, fun h => by simp at h, fun h => by simp at h, fun _ => rfl⟩
      | false =>
        cases he : ((u.setBaudSel sel).choiceAt 0).error with
        | true =>
          rw [tReconfigure_error _ _ hr he]
          exact ⟨_, rfl, fun h => by simp at h, fun _ => ⟨hbaud, rfl⟩, fun h => by simp at h⟩
        | false =>
          rw [tReconfigure_done _ _ hr he]
          exact ⟨_, rfl, fun _ => ⟨hbaud, rfl⟩, fun h => by simp at h, fun h => by simp at h⟩

end Sys2Proof.Machine
end

section
/-! PROOFS. What a command leaves alone (spec/43_commands.md R193, spec/10_state.md R20). -/

namespace Sys2Proof.Machine

/-- `t` comes from `s` by up to `calls` outward calls as a command makes them: `DLEN_SEL` is kept under
`dlen`, `BAUD_SEL` and the speed under `baud`, `TXBUF` from `request` on, `RXBUF` from `answer` on, `OUT` grows,
and no other element but the result changes. -/
structure CommandKeeps (dlen baud : Prop) (request answer : Nat) (s t : State) (calls : Nat) : Prop where
  params : t.params = s.params
  fsm : t.fsm = s.fsm
  addr : t.addr = s.addr
  consumerValid : t.consumerValid = s.consumerValid
  sessionP : t.sessionP = s.sessionP
  rxcount : t.rxcount = s.rxcount
  xbuf : t.xbuf = s.xbuf
  xlen : t.xlen = s.xlen
  dlenSel : dlen → t.dlenSel = s.dlenSel
  baudSel : baud → t.baudSel = s.baudSel ∧ t.speed = s.speed
  delivered : deliveriesOf t.calls = deliveriesOf s.calls
  out : s.out <+: t.out
  txbuf : ∀ x, request ≤ x → t.txbuf.read x = s.txbuf.read x
  rxbuf : ∀ x, answer ≤ x → t.rxbuf.read x = s.rxbuf.read x
  choices : ∃ k ≤ calls, ∀ j, t.choiceAt j = s.choiceAt (k + j)

section

variable {dlen baud : Prop} {request answer calls : Nat} {s t : State}

theorem Effect.commandKeeps {tx rx : Nat} (h : Effect s t calls tx rx) (htx : tx ≤ request)
    (hrx : rx ≤ answer) : CommandKeeps dlen baud request answer s t calls :=
  { h with
    dlenSel := fun _ => h.dlenSel
    baudSel := fun _ => ⟨h.baudSel, h.speed⟩
    out := h.out_prefix
    txbuf := fun _ hx => h.txbuf.read (Nat.le_trans htx hx)
    rxbuf := fun _ hx => h.rxbuf.read (Nat.le_trans hrx hx) }

theorem CommandKeeps.mono {calls' : Nat} (h : CommandKeeps dlen baud request answer s t calls)
    (hc : calls ≤ calls') : CommandKeeps dlen baud request answer s t calls' :=
  { h with choices := h.choices.imp fun _ hk => ⟨hk.1.trans hc, hk.2⟩ }

theorem CommandKeeps.setResult (h : CommandKeeps dlen baud request answer s t calls)
    (r : Option OpResult) : CommandKeeps dlen baud request answer s (t.setResult r) calls := { h with }

/-- One call more is one choice more. -/
theorem choices_succ (h : ∃ k ≤ calls, ∀ j, t.choiceAt j = s.choiceAt (k + j)) :
    ∃ k ≤ calls + 1, ∀ j, t.choiceAt (j + 1) = s.choiceAt (k + j) := by
  obtain ⟨k, hk, hj⟩ := h
  exact ⟨k + 1, by omega, fun j => by rw [hj]; congr 1; omega⟩

/-- No reset lands in the calls a command has left. -/
theorem CommandKeeps.noReset (h : CommandKeeps dlen baud request answer s t calls) (hc : calls < 4)
    (hn : s.noReset 4 = true) : (t.choiceAt 0).reset = false := by
  obtain ⟨k, hk, hj⟩ := h.choices
  rw [hj, Nat.add_zero]
  simpa using List.all_eq_true.1 hn k (List.mem_range.2 (by omega))

theorem CommandKeeps.toIdle (h : CommandKeeps dlen baud request answer s t calls)
    (hidle : s.fsm = .idle) : CommandKeeps dlen baud request answer s (t.setFsm .idle) calls :=
  { h with fsm := hidle.symm }

theorem CommandKeeps.flushed (h : CommandKeeps dlen baud request answer s t calls) :
    CommandKeeps dlen baud request answer s t.flushed (calls + 1) :=
  { h with
    delivered := by
      rw [← h.delivered, State.flushed_calls, deliveriesOf_append]
      exact List.append_nil _
    choices := by simpa using choices_succ h.choices }

/-- Taking an error in `Idle` is one more call at most (R262). -/
theorem CommandKeeps.takeError (h : CommandKeeps dlen baud request answer s t calls) (e : ErrorKind)
    (hidle : s.fsm = .idle) (hr : (t.choiceAt 0).reset = false) :
    CommandKeeps dlen baud request answer s (takeError e t) (calls + 1) := by
  obtain ⟨-, ht⟩ | ⟨-, -, ht⟩ | ⟨-, hreset, -⟩ := takeError_cases e t
  · rw [ht]
    exact ((h.mono (Nat.le_succ calls)).toIdle hidle).setResult _
  · rw [ht]
    exact (h.flushed.toIdle hidle).setResult _
  · rw [State.choice_eq, hr] at hreset
    cases hreset

/-- The transport is told of a new speed (R153, R186). -/
theorem CommandKeeps.reconfigure {v : LineSpeed} {m : Nat} {e : Bool}
    (h : CommandKeeps dlen False request answer s t calls) :
    CommandKeeps dlen False request answer s
      ((t.beginCall.setSpeed v).record (.reconfigure m e)) (calls + 1) :=
  { h with
    baudSel := False.elim
    delivered := by
      rw [← h.delivered]
      exact (deliveriesOf_append t.calls [.reconfigure m e]).trans (List.append_nil _)
    choices := by simpa using choices_succ h.choices }

/-- How a command that runs without a reset can end: in a state that keeps what it must. -/
def Res.keeps {α : Type} (dlen baud : Prop) (request answer : Nat) (s : State) (r : Res α) : Prop :=
  r.ends (fun _ u => CommandKeeps dlen baud request answer s u 3)
    (fun _ u => CommandKeeps dlen baud request answer s u 3) (fun _ => False) True

/-- A command is its exchange, and what follows has one more call. -/
theorem exchangeTo_andThen_keeps {α : Type} {addr : Bytes4} {op : CmdOp} {payload : List Byte}
    {k : Byte × List Byte → State → Res α} (hn : s.noReset 4 = true)
    (hreq : payload.length + 11 = request) (hans : ackLen s.params op + 11 = answer)
    (hk : ∀ sf u, CommandKeeps dlen baud request answer s u 2 →
      (k sf u).keeps dlen baud request answer s) :
    ((exchangeTo addr op payload s).andThen k).keeps dlen baud request answer s := by
  have hkeep : ∀ u, Effect s u 2 (payload.length + 11) (min (ackLen s.params op + 11) rxCapacity) →
      CommandKeeps dlen baud request answer s u 2 := fun u hu =>
    hu.commandKeeps (Nat.le_of_eq hreq) (by omega)
  have hends := exchangeTo_ends addr op payload s
  cases hx : exchangeTo addr op payload s with
  | ok sf u =>
    rw [hx] at hends
    exact hk sf u (hkeep u hends.1)
  | raise e u =>
    rw [hx] at hends
    exact (hkeep u hends).mono (by omega)
  | reset u =>
    rw [hx] at hends
    have h2 := State.noReset_of_succ (State.noReset_of_succ hn)
    rw [hends.2] at h2
    cases h2
  | fault f => rw [hx] at hends; exact hends
  | refused q => trivial

theorem CommandKeeps.refl (s : State) : CommandKeeps dlen baud request answer s s calls :=
  ((Effect.refl s 0 0).commandKeeps (Nat.zero_le _) (Nat.zero_le _)).mono (Nat.zero_le _)

theorem statusCommand_keeps {addr : Bytes4} {op : CmdOp} {payload : List Byte}
    (hn : s.noReset 4 = true) (hreq : payload.length + 11 = request)
    (hans : ackLen s.params op + 11 = answer) :
    (statusCommand addr op payload s).keeps dlen baud request answer s :=
  exchangeTo_andThen_keeps hn hreq hans fun _ _ hu => hu.mono (by omega)

theorem readSysParaCommand_keeps (addr : Bytes4) (hn : s.noReset 4 = true) :
    (readSysParaCommand addr s).keeps dlen baud 12 28 s := by
  refine exchangeTo_andThen_keeps hn rfl rfl fun sf u hu => ?_
  split <;> exact hu.mono (by omega)

theorem templateNumCommand_keeps (addr : Bytes4) (hn : s.noReset 4 = true) :
    (templateNumCommand addr s).keeps dlen baud 12 (s.params.ackTemplateNum + 11) s := by
  refine exchangeTo_andThen_keeps hn rfl rfl fun sf u hu => ?_
  split <;> exact hu.mono (by omega)

theorem setSecurityCommand_keeps (addr : Bytes4) (level : Nat) (hn : s.noReset 4 = true) :
    (setSecurityCommand addr level s).keeps dlen baud 14 (s.params.ackSetSysPara + 11) s := by
  unfold setSecurityCommand
  split
  · exact statusCommand_keeps hn rfl rfl
  · exact CommandKeeps.refl s

theorem setDatalenCommand_keeps (addr : Bytes4) (sel : Nat) (hn : s.noReset 4 = true) :
    (setDatalenCommand addr sel s).keeps False baud 14 (s.params.ackSetSysPara + 11) s := by
  unfold setDatalenCommand
  split
  · refine exchangeTo_andThen_keeps hn rfl rfl fun sf u hu => ?_
    split
    · exact { hu.mono (Nat.le_succ 2) with dlenSel := False.elim }
    · exact hu.mono (by omega)
  · exact CommandKeeps.refl s

theorem setBaudCommand_keeps (addr : Bytes4) (sel : Nat) (hn : s.noReset 4 = true) :
    (setBaudCommand addr sel s).keeps dlen False 14 (s.params.ackSetSysPara + 11) s := by
  unfold setBaudCommand
  split
  · refine exchangeTo_andThen_keeps hn rfl rfl fun sf u hu => ?_
    split
    · have hset : CommandKeeps dlen False 14 (s.params.ackSetSysPara + 11) s (u.setBaudSel sel) 2 :=
        { hu with baudSel := False.elim }
      have hr := hset.noReset (by omega) hn
      cases he : ((u.setBaudSel sel).choiceAt 0).error with
      | true =>
        rw [tReconfigure_error _ _ hr he]
        exact hset.reconfigure
      | false =>
        rw [tReconfigure_done _ _ hr he]
        exact hset.reconfigure
    · exact hu.mono (by omega)
  · exact CommandKeeps.refl s

/-- What a command answers in `Idle` when no reset lands: a state that keeps what it must. -/
theorem Res.keeps.finish {r : Res OpValue} (h : r.keeps dlen baud request answer s)
    (hn : s.noReset 4 = true) (hrun : whenIdle s (finish r) = .next t) :
    s.fsm = .idle ∧ CommandKeeps dlen baud request answer s t 4 := by
  have hidle : s.fsm = .idle := by
    by_contra hbusy
    rw [whenIdle_busy s _ hbusy] at hrun
    cases hrun
  rw [whenIdle_idle s _ hidle] at hrun
  obtain ⟨v, u, hu, hf⟩ | ⟨e, u, hu, hf⟩ | ⟨u, hu, -⟩ | ⟨-, q, hf⟩ := finish_ends h
  · rw [hf] at hrun
    cases hrun
    exact ⟨hidle, (hu.mono (by omega)).setResult _⟩
  · rw [hf] at hrun
    cases hrun
    exact ⟨hidle, hu.takeError e hidle (hu.noReset (by omega) hn)⟩
  · exact hu.elim
  · rw [hf] at hrun
    cases hrun

/-- The clauses of R193, from what is kept and what a setter may change. -/
theorem CommandKeeps.clauses {dlenSetter baudSetter : Prop}
    (h : s.fsm = .idle ∧ CommandKeeps dlen baud request answer s t 4) (hd : dlen ∨ dlenSetter)
    (hb : baud ∨ baudSetter) :
    t.params = s.params ∧ t.fsm = .idle ∧ t.addr = s.addr ∧
      t.consumerValid = s.consumerValid ∧ t.sessionP = s.sessionP ∧ t.rxcount = s.rxcount ∧
      t.xbuf = s.xbuf ∧ t.xlen = s.xlen ∧ (t.dlenSel = s.dlenSel ∨ dlenSetter) ∧
      ((t.baudSel = s.baudSel ∧ t.speed = s.speed) ∨ baudSetter) ∧
      deliveriesOf t.calls = deliveriesOf s.calls ∧ s.out <+: t.out ∧
      (∀ x, request ≤ x → t.txbuf.read x = s.txbuf.read x) ∧
      (∀ x, answer ≤ x → t.rxbuf.read x = s.rxbuf.read x) := by
  obtain ⟨hidle, h⟩ := h
  exact ⟨h.params, h.fsm.trans hidle, h.addr, h.consumerValid, h.sessionP, h.rxcount, h.xbuf, h.xlen,
    hd.imp_left h.dlenSel, hb.imp_left h.baudSel, h.delivered, h.out, h.txbuf, h.rxbuf⟩

end

/-- Settles O45: every command keeps what it must, and each setter is named where it may change a register. -/
theorem commandsLeaveOtherStateAlone : Obligations.CommandsLeaveOtherStateAlone := by
  unfold Obligations.CommandsLeaveOtherStateAlone
  intro s t i request answer hi hn hrun
  cases i with
  | opVfyPwd pw | vfyPwd a pw cks | opGenImage | genImage a cks =>
    obtain ⟨rfl, rfl⟩ := hi
    exact CommandKeeps.clauses ((statusCommand_keeps hn rfl rfl).finish hn hrun)
      (.inl trivial) (.inl trivial)
  | opReadSysPara | readSysPara a cks =>
    obtain ⟨rfl, rfl⟩ := hi
    exact CommandKeeps.clauses ((readSysParaCommand_keeps _ hn).finish hn hrun)
      (.inl trivial) (.inl trivial)
  | opTemplateNum | templateNum a cks =>
    obtain ⟨rfl, rfl⟩ := hi
    exact CommandKeeps.clauses ((templateNumCommand_keeps _ hn).finish hn hrun)
      (.inl trivial) (.inl trivial)
  | opSetSecurity level | setSecurity a level cks =>
    obtain ⟨rfl, rfl⟩ := hi
    exact CommandKeeps.clauses ((setSecurityCommand_keeps _ _ hn).finish hn hrun)
      (.inl trivial) (.inl trivial)
  | opSetDatalen sel =>
    obtain ⟨rfl, rfl⟩ := hi
    exact CommandKeeps.clauses ((setDatalenCommand_keeps _ _ hn).finish hn hrun)
      (.inr (.inl ⟨sel, rfl⟩)) (.inl trivial)
  | setDatalen a sel cks =>
    obtain ⟨rfl, rfl⟩ := hi
    exact CommandKeeps.clauses ((setDatalenCommand_keeps _ _ hn).finish hn hrun)
      (.inr (.inr ⟨a, sel, cks, rfl⟩)) (.inl trivial)
  | opSetBaud sel =>
    obtain ⟨rfl, rfl⟩ := hi
    exact CommandKeeps.clauses ((setBaudCommand_keeps _ _ hn).finish hn hrun)
      (.inl trivial) (.inr (.inl ⟨sel, rfl⟩))
  | setBaud a sel cks =>
    obtain ⟨rfl, rfl⟩ := hi
    exact CommandKeeps.clauses ((setBaudCommand_keeps _ _ hn).finish hn hrun)
      (.inl trivial) (.inr (.inr ⟨a, sel, cks, rfl⟩))
  | _ => exact hi.elim

end Sys2Proof.Machine
end

section
/-! PROOFS. The bulk transfer, continued (spec/45_bulk_transfer.md). -/

namespace Sys2Proof.Machine

/-! ### Opening the session, and the module's frames -/

/-- Settles O34: each property holds of each of the 256 bytes. -/
theorem expandByteLosesNothing : Obligations.ExpandByteLosesNothing := by
  unfold Obligations.ExpandByteLosesNothing
  decide +kernel

/-- Settles O36: REGISTER_CONSUMER is one update and no call. -/
theorem registerConsumerWritesTheFlag : Obligations.RegisterConsumerWritesTheFlag := by
  unfold Obligations.RegisterConsumerWritesTheFlag
  exact fun s valid hidle => whenIdle_idle s _ hidle

/-- Settles O40: READ_RXCOUNT is a read of one register. -/
theorem readRxcountReturnsTheCount : Obligations.ReadRxcountReturnsTheCount := by
  unfold Obligations.ReadRxcountReturnsTheCount
  exact fun s hidle => whenIdle_idle s _ hidle

/-- `size(sel) = 32 << sel`, which `SESSION_P`'s nine bits hold (R23, R30). -/
theorem packetSize_toNat {sel : Nat} (h : sel ≤ 3) :
    (BitVec.ofNat 9 (packetSize sel)).toNat = 32 * 2 ^ sel := by
  interval_cases sel <;> rfl

theorem exec_opUploadImage_opens {sel : Nat} (s : State) (hidle : s.fsm = .idle)
    (hc : s.consumerValid = true) (hsel : sel ≤ 3) :
    exec (.opUploadImage sel) s = .next ((s.openSession (packetSize sel)).setResult none) := by
  refine (whenIdle_idle s _ hidle).trans ?_
  rw [openUpload, State.consumerRegistered_eq, if_pos hc, if_pos ((legalDatalen_iff sel).2 hsel),
    finishRun_none]

/-- Settles O37: with a consumer and a legal selector the session opens, at the selector's size. -/
theorem uploadOpensTheSession : Obligations.UploadOpensTheSession := by
  unfold Obligations.UploadOpensTheSession
  intro s sel hidle hc hsel
  exact ⟨_, packetSize_toNat hsel, exec_opUploadImage_opens s hidle hc hsel⟩

/-- Bytes that arrive while the block is idle wait in `IN` (R255, R306). -/
theorem arrive_idle (bs : List Byte) (s : State) (h : s.fsm = .idle) :
    arrive bs s = .next (s.setIn (s.inq ++ bs)) := advance_idle (s.setIn (s.inq ++ bs)) h

/-- Settles O31: each row's meaning is the arrival of its bytes. -/
theorem moduleFramesArriveInOrder : Obligations.ModuleFramesArriveInOrder := by
  unfold Obligations.ModuleFramesArriveInOrder
  intro s a len cks n payload status body bytes arrives
  have key : ∀ i k l p, exec i s = arrive (frameBytes s.params k a l p cks) s →
      arrives i (bytes (kindByte s.params k) l p) := fun i k l p hexec => by
    have hbytes : frameBytes s.params k a l p cks = bytes (kindByte s.params k) l p := by
      simp [bytes, frameBytes, joinFrame_eq]
    rw [hbytes] at hexec
    exact ⟨hexec, fun hidle => hexec.trans (arrive_idle _ s hidle)⟩
  exact ⟨key _ .data _ _ rfl, key _ .endOfData _ _ rfl, key _ .acknowledge _ _ rfl,
    key _ .acknowledge _ _ rfl, key _ .acknowledge _ _ rfl, key _ .acknowledge _ _ rfl⟩

/-! ### The request -/

theorem exec_upImage_awaiting (a : Bytes4) (cks : Half) (s : State)
    (h : s.fsm = .awaitingGenerateAck) :
    exec (.upImage a cks) s = finishRun (awaitAck a s) := by
  change execUpImage a s = _
  rw [execUpImage, h]

/-- The answer to the request opens the stream or ends the upload with its status (R224). -/
theorem awaitAck_answered {status : Byte} {fields : List Byte} {s : State} (addr : Bytes4)
    (hp : s.params.ok = true) (hmax : 1 ≤ s.params.maxPayload)
    (hn : fields.length + 1 = s.params.ackUpImage)
    (h : s.answered 12 (s.ackFrame (status :: fields)) = true) :
    let t := s.afterExchange (encodeFrame s.params .command [s.params.icUpImage] addr)
      (s.ackFrame (status :: fields)) (Config.timeout .upImage)
    awaitAck addr s =
      if status = s.params.stSuccess then .ok none (t.setFsm .streamingFrames)
      else .ok (some (.status status)) (t.setFsm .idle) :=
  exchangeTo_answered_andThen addr .upImage [_] hp hmax hn h

/-- Settles O29: the request's meaning by the state of `FSM`. -/
theorem upImageRequestIsOneExchange : Obligations.UpImageRequestIsOneExchange := by
  unfold Obligations.UpImageRequestIsOneExchange
  intro s a cks
  refine ⟨fun h => ?idle, fun h => ?streaming, fun h => ?awaiting,
    fun status fields hp hmax hn hans h => ⟨fun hst => ?ends, fun hst => ?opens⟩⟩
  case idle =>
    change execUpImage a s = _
    rw [execUpImage, h]
  case streaming =>
    change execUpImage a s = _
    rw [execUpImage, h]
  case awaiting => rw [exec_upImage_awaiting _ _ s h, advance_awaiting s h]
  case ends =>
    rw [exec_upImage_awaiting _ _ s h, awaitAck_answered a hp hmax hn hans, if_neg hst]
    rfl
  case opens =>
    rw [exec_upImage_awaiting _ _ s h, awaitAck_answered a hp hmax hn hans, if_pos hst]
    rfl

/-! ### Streaming -/

/-- A session's frames have a packet's length (R30). -/
theorem legalSession_le {n : Nat} (h : legalSession n = true) : 1 ≤ n ∧ n ≤ 256 := by
  simp only [legalSession, Bool.or_eq_true, beq_iff_eq] at h
  omega

/-- Bytes that arrive while frames stream are there for the next reception (R225). -/
theorem arrive_streaming (bs : List Byte) (s : State) (h : s.fsm = .streamingFrames) :
    arrive bs s = finishRun (streamFrame (s.setIn (s.inq ++ bs))) :=
  advance_streaming (s.setIn (s.inq ++ bs)) h

/-- Settles O32: the frame that arrives is read from the front of `IN` in the same step. -/
theorem transferFrameIsDelivered : Obligations.TransferFrameIsDelivered := by
  unfold Obligations.TransferFrameIsDelivered
  intro s raw hp hf hsession hlen hr frame s0
  have h256 : raw.length ≤ 256 := hlen ▸ (legalSession_le hsession).2
  have key : ∀ k ∈ acceptTransfer, (s0 k).brings 0 (frame k) = true →
      arrive (frame k) s = finishRun (
        if k = .endOfData then .ok (some (.status s.params.stSuccess))
          (((s0 k).afterTransfer (frame k) raw).setFsm .idle)
        else .ok none ((s0 k).afterTransfer (frame k) raw)) := fun k hk hb => by
    rw [arrive_streaming _ s hf]
    exact congrArg finishRun (streamFrame_transfer k raw (s0 k) hp hlen h256 hk hb hr)
  exact ⟨key .data (by decide), key .endOfData (by decide)⟩

/-- The state after a delivery, field by field (R214, R225). -/
theorem State.delivered_eq (s : State) (raw : List Byte) :
    s.delivered raw = { s with
      xbuf := s.xbuf.writeBytes 0 (expandBytes raw), xlen := 2 * raw.length
      rxcount := s.rxcount + s.sessionP.setWidth 32
      inq := s.inq ++ (s.choiceAt 0).arrived, env := s.env.drop 1, envIndex := s.envIndex + 1
      calls := s.calls ++ [.deliver (expandBytes raw)] } := by
  rw [← expandBytes_length]
  rfl

theorem deliver_completes (bs : List Byte) (s : State) (hr : (s.choiceAt 0).reset = false) :
    deliver bs s = .ok () (s.beginCall.record (.deliver bs)) := if_neg (ne_true_of_eq_false hr)

theorem deliver_reset (bs : List Byte) (s : State) (hr : (s.choiceAt 0).reset = true) :
    deliver bs s = .reset (s.beginCall.record (.deliver bs)) := if_pos hr

/-- What a received frame leads to when no reset lands in its delivery: Data goes on, EndOfData ends the
upload (R226, R227). -/
theorem streamFrame_received {s u : State} {k : Kind} {raw : List Byte}
    (hx : recvFrame acceptTransfer (s.sessionP.toNat + checksumSize) Config.timeoutStream s =
      .ok (k, raw) u) (h256 : raw.length ≤ 256) (hr : (u.choiceAt 0).reset = false) :
    (k = .data → streamFrame s = .ok none (u.delivered raw)) ∧
    (k = .endOfData → streamFrame s =
      .ok (some (.status u.params.stSuccess)) ((u.delivered raw).setFsm .idle)) := by
  rw [streamFrame_eq, hx, Res.andThen_ok, if_pos h256,
    deliver_completes _ (u.fillX (expandBytes raw)).countFrame hr, Res.andThen_ok]
  constructor <;> rintro rfl <;> rfl

theorem streamFrame_received_reset {s u : State} {k : Kind} {raw : List Byte}
    (hx : recvFrame acceptTransfer (s.sessionP.toNat + checksumSize) Config.timeoutStream s =
      .ok (k, raw) u) (h256 : raw.length ≤ 256) (hr : (u.choiceAt 0).reset = true) :
    streamFrame s = .reset (u.delivered raw) := by
  rw [streamFrame_eq, hx, Res.andThen_ok, if_pos h256,
    deliver_reset _ (u.fillX (expandBytes raw)).countFrame hr, Res.andThen_reset]
  rfl

/-- Settles O39: the block receives as OP.RECV_FRAME does; on an error or a reset they end alike, and a frame
that is received is delivered. -/
theorem streamingFollowsItsReception : Obligations.StreamingFollowsItsReception := by
  unfold Obligations.StreamingFollowsItsReception
  intro s hp hf hsession hi
  have hsize := legalSession_le hsession
  have hends := recvFrame_ends (Effect.refl s 0 0) acceptTransfer
    (s.sessionP.toNat + checksumSize) Config.timeoutStream
  have hexec : exec (.opRecvFrame [.data, .endOfData] (s.sessionP.toNat + 2) Config.timeoutStream) s =
      finish ((recvFrame acceptTransfer (s.sessionP.toNat + checksumSize) Config.timeoutStream s).andThen
        fun kp s => .ok (.frame kp.1 kp.2) s) := rfl
  rw [hexec, step_advance s hi, advance_streaming s hf]
  cases hx : recvFrame acceptTransfer (s.sessionP.toNat + checksumSize) Config.timeoutStream s with
  | ok kp u =>
    obtain ⟨k, raw⟩ := kp
    rw [hx] at hends
    obtain ⟨hu, hk, hraw⟩ := hends
    have hlen : raw.length = s.sessionP.toNat :=
      hraw ⟨by unfold checksumSize; omega, by unfold checksumSize; omega⟩
    have h256 : raw.length ≤ 256 := hlen ▸ hsize.2
    refine ⟨_, rfl, fun k' raw' h => ?_, by simp, by simp⟩
    obtain ⟨rfl, rfl⟩ : k = k' ∧ raw = raw' := by simpa using h
    refine ⟨hlen, fun hr => ?_, fun hr => ?_⟩
    · obtain ⟨hdata, hend⟩ := streamFrame_received hx h256 hr
      rw [hu.params] at hend
      rw [← hu.sessionP]
      intro t
      refine ⟨fun hkd => ?_, fun hke => ?_, by simpa [acceptTransfer] using hk⟩
      · rw [hdata hkd, State.delivered_eq]
        rfl
      · rw [hend hke, State.delivered_eq]
        rfl
    · rw [streamFrame_received_reset hx h256 hr, State.delivered_eq]
      rfl
  | raise e u =>
    rw [hx] at hends
    have hstep : finishRun (streamFrame s) = .next (takeError e u) := by
      rw [streamFrame, hx]
      rfl
    refine ⟨_, rfl, fun k raw h => ?_, fun e' h => ?_, fun _ => hstep⟩
    · obtain hr | hr := takeError_result e u <;> simp [hr] at h
    · obtain ⟨-, heff⟩ | ⟨-, w, -, hreset⟩ := takeError_effect hends e
      · exact ⟨hstep, takeError_fsm e u, heff.delivered, heff.rxcount, heff.xbuf, heff.xlen⟩
      · rw [hreset] at h
        cases h
  | reset u =>
    refine ⟨_, rfl, fun k raw h => by simp at h, fun e h => by simp at h, fun _ => ?_⟩
    rw [streamFrame, hx]
    rfl
  | fault f => rw [hx] at hends; exact hends.elim
  | refused q => rw [hx] at hends; exact hends.elim

/-! ### Whole uploads -/

/-- The block streams frames of `P` bytes under a legal binding, with nothing waiting and nothing presented. -/
structure State.Streams (s : State) (P : Nat) : Prop where
  binding : s.params.ok = true
  fsm : s.fsm = .streamingFrames
  size : s.sessionP.toNat = P
  bound : P ≤ 256
  inq : s.inq = []
  inputs : s.inputs = []

/-- The environment's choices for one transfer frame: the frame arrives and is read whole, and its delivery
is undisturbed. -/
def transferChoices (p : Params) (a : Bytes4) (k : Kind) (raw : List Byte) : List EnvChoice :=
  [⟨encodeFrame p k raw a, 267, false, false⟩, ⟨[], 0, false, false⟩]

theorem State.choiceAt_of_env {s : State} {k : Nat} {c : EnvChoice} (h : s.env[k]? = some c) :
    s.choiceAt k = c := by
  rw [choiceAt, h]

section

variable {s : State} {P : Nat}

/-- One step for one frame (R225 to R227). -/
theorem step_transfer {k : Kind} {raw : List Byte} {rest : List EnvChoice} (hs : s.Streams P)
    (hk : k ∈ acceptTransfer) (hlen : raw.length = P)
    (henv : s.env = transferChoices s.params s.addr k raw ++ rest) :
    let t := s.afterTransfer (encodeFrame s.params k raw s.addr) raw
    step s = finishRun (if k = .endOfData then .ok (some (.status s.params.stSuccess)) (t.setFsm .idle)
      else .ok none t) ∧ t.env = rest ∧ t.inq = [] := by
  intro t
  have h256 : raw.length ≤ 256 := hlen ▸ hs.bound
  have h0 : s.choiceAt 0 = ⟨encodeFrame s.params k raw s.addr, 267, false, false⟩ :=
    State.choiceAt_of_env (by rw [henv]; rfl)
  have h1 : s.choiceAt 1 = ⟨[], 0, false, false⟩ := State.choiceAt_of_env (by rw [henv]; rfl)
  have hin : s.inAt 0 = encodeFrame s.params k raw s.addr := by
    rw [State.inAt, hs.inq, h0, List.nil_append]
  have hb : s.brings 0 (encodeFrame s.params k raw s.addr) = true := by
    rw [State.brings, hin, h0]
    simp [EnvChoice.passes]
    omega
  refine ⟨?_, ?_, ?_⟩
  · rw [step_advance s hs.inputs, advance_streaming s hs.fsm]
    exact congrArg finishRun (streamFrame_transfer k raw s hs.binding (hlen.trans hs.size.symm) h256 hk
      hb (by rw [h1]))
  · rw [State.afterTransfer_env, henv]
    rfl
  · rw [State.afterTransfer_inq, hin, h1, List.drop_length]
    rfl

/-- What a number of delivered frames leaves: the block still streams, and has counted and delivered them. -/
structure Delivered (s t : State) (P : Nat) (frames : List (List Byte)) (rest : List EnvChoice) :
    Prop where
  streams : t.Streams P
  params : t.params = s.params
  addr : t.addr = s.addr
  env : t.env = rest
  result : t.result = none
  deliveries : deliveriesOf t.calls = deliveriesOf s.calls ++ frames.map expandBytes
  rxcount : t.rxcount = s.rxcount + BitVec.ofNat 32 (frames.length * P)

/-- One Data frame: delivered, and the stream goes on (R226). -/
theorem step_data {raw : List Byte} {rest : List EnvChoice} (hs : s.Streams P) (hlen : raw.length = P)
    (henv : s.env = transferChoices s.params s.addr .data raw ++ rest) :
    ∃ t, step s = .next t ∧ Delivered s t P [raw] rest := by
  obtain ⟨hstep, hrest, hinq⟩ := step_transfer hs (by decide) hlen henv
  refine ⟨_, hstep, ⟨⟨hs.binding, hs.fsm, hs.size, hs.bound, hinq, hs.inputs⟩, rfl, rfl, hrest, rfl, ?_, ?_⟩⟩
  · exact deliveriesOf_append _ _
  · rw [← hs.size]
    simp only [List.length_singleton, Nat.one_mul, BitVec.ofNat_toNat]
    rfl

theorem Delivered.trans {t u : State} {frames more : List (List Byte)} {rest rest' : List EnvChoice}
    (h : Delivered s t P frames rest') (h' : Delivered t u P more rest) :
    Delivered s u P (frames ++ more) rest where
  streams := h'.streams
  params := h'.params.trans h.params
  addr := h'.addr.trans h.addr
  env := h'.env
  result := h'.result
  deliveries := by rw [h'.deliveries, h.deliveries, List.map_append, List.append_assoc]
  rxcount := by
    rw [h'.rxcount, h.rxcount, List.length_append, Nat.add_mul, BitVec.ofNat_add, BitVec.add_assoc]

/-- Any number of Data frames, one step each. -/
theorem run_data (frames : List (List Byte)) {rest : List EnvChoice} (hs : s.Streams P)
    (hres : s.result = none) (hlen : ∀ raw ∈ frames, raw.length = P)
    (henv : s.env = frames.flatMap (transferChoices s.params s.addr .data) ++ rest) :
    ∃ t, core.run frames.length s = .next t ∧ Delivered s t P frames rest := by
  induction frames generalizing s with
  | nil =>
    exact ⟨s, rfl, ⟨hs, rfl, rfl, henv, hres, (List.append_nil _).symm, by simp⟩⟩
  | cons raw frames ih =>
    rw [List.flatMap_cons, List.append_assoc] at henv
    obtain ⟨t, hstep, ht⟩ := step_data hs (hlen raw (by simp)) henv
    obtain ⟨u, hrun, hu⟩ := ih ht.streams ht.result (fun r hr => hlen r (by simp [hr]))
      (by rw [ht.env, ht.params, ht.addr])
    exact ⟨u, (core_run_succ _ s t hstep).trans hrun, ht.trans hu⟩

/-- A run in two parts. -/
theorem run_add (M : Host.Core) (m n : Nat) {a b : M.State} (h : M.run m a = .next b) :
    M.run (m + n) a = M.run n b := by
  induction m generalizing a with
  | zero =>
    cases h
    rw [Nat.zero_add]
  | succ m ih =>
    cases hstep : M.step a with
    | next c =>
      have hnext : ∀ k, M.run (k + 1) a = M.run k c := fun k => by simp only [Host.Core.run, hstep]
      rw [hnext] at h
      rw [Nat.succ_add, hnext]
      exact ih h
    | fault f => simp [Host.Core.run, hstep] at h
    | refused q => simp [Host.Core.run, hstep] at h

/-- The steps from the operation's start into the stream: the session opens and the request is answered with
success (R223, R224). -/
theorem run_opening {sel : Nat} {fields : List Byte} {rest : List EnvChoice}
    (hp : s.params.ok = true) (hmax : 1 ≤ s.params.maxPayload) (hidle : s.fsm = .idle)
    (hc : s.consumerValid = true) (hsel : sel ≤ 3) (hn : fields.length + 1 = s.params.ackUpImage)
    (hinq : s.inq = []) (hin : s.inputs = [.issue (.opUploadImage sel)])
    (henv : s.env = ⟨[], 12, false, false⟩ ::
      ⟨s.ackFrame (s.params.stSuccess :: fields), 267, false, false⟩ :: rest) :
    ∃ t, core.run 2 s = .next t ∧ t.Streams (32 * 2 ^ sel) ∧ t.params = s.params ∧ t.addr = s.addr ∧
      t.env = rest ∧ t.result = none ∧ deliveriesOf t.calls = deliveriesOf s.calls ∧
      t.rxcount = 0#32 := by
  have hopen : step s = .next (((s.setInputs []).openSession (packetSize sel)).setResult none) := by
    rw [step_issue hin (State.takes_of_idle _ hidle)]
    exact exec_opUploadImage_opens (s.setInputs []) hidle hc hsel
  generalize hs1 : ((s.setInputs []).openSession (packetSize sel)).setResult none = s1 at hopen
  have henv1 : s1.env = ⟨[], 12, false, false⟩ ::
      ⟨s1.ackFrame (s.params.stSuccess :: fields), 267, false, false⟩ :: rest := by
    rw [← hs1]
    exact henv
  have hinq1 : s1.inq = [] := by
    rw [← hs1]
    exact hinq
  have hparams : s1.params = s.params := by rw [← hs1]; rfl
  have hin1 : s1.inAt 1 = s1.ackFrame (s.params.stSuccess :: fields) := by
    rw [State.inAt, State.inAt, State.choiceAt_of_env (k := 0) (by rw [henv1]; rfl),
      State.choiceAt_of_env (k := 1) (by rw [henv1]; rfl), hinq1]
    rfl
  have hans : s1.answered 12 (s1.ackFrame (s.params.stSuccess :: fields)) = true := by
    have hack := ((params_ok_bounds hp).2.2.2 .upImage).2
    have hlen : (s1.ackFrame (s.params.stSuccess :: fields)).length ≤ 267 := by
      rw [State.ackFrame, encodeFrame_length, List.length_cons]
      change s.params.ackUpImage ≤ 256 at hack
      omega
    rw [State.answered, State.brings, hin1, State.choiceAt_of_env (k := 0) (by rw [henv1]; rfl),
      State.choiceAt_of_env (k := 1) (by rw [henv1]; rfl)]
    simp [EnvChoice.passes, hlen]
  have hawait := awaitAck_answered s1.addr (hparams ▸ hp) (hparams ▸ hmax) (hparams ▸ hn) hans
  have hstep : step s1 = .next _ :=
    (step_awaiting (by rw [← hs1]; rfl) (by rw [← hs1]; rfl)).trans
      (congrArg finishRun (hawait.trans (if_pos (hparams ▸ rfl))))
  refine ⟨_, (core_run_succ 1 s s1 hopen).trans (core_run_succ 0 s1 _ hstep), ?_⟩
  have hdrained : (s1.inAt 1).drop (s1.ackFrame (s.params.stSuccess :: fields)).length = [] := by
    rw [hin1, List.drop_length]
  have hbound : 32 * 2 ^ sel ≤ 256 := by interval_cases sel <;> decide
  subst hs1
  exact ⟨⟨hp, rfl, packetSize_toNat hsel, hbound, hdrained, rfl⟩, rfl, rfl,
    congrArg (List.drop 2) henv, rfl,
    (deliveriesOf_append _ _).trans (List.append_nil _), rfl⟩

end

/-- Settles O41: the opening, a step for each Data frame, and the last step for the EndOfData frame. -/
theorem wholeUploadDeliversTheImage : Obligations.WholeUploadDeliversTheImage := by
  unfold Obligations.WholeUploadDeliversTheImage
  intro s sel frames last fields hp hmax hidle hc hsel hn hframes hlast hinq hin henv
  obtain ⟨t, hopening, hstreams, hparams, haddr, htenv, htres, htdel, htcount⟩ :=
    run_opening hp hmax hidle hc hsel hn hinq hin
      (rest := frames.flatMap (transferChoices s.params s.addr .data) ++
        (transferChoices s.params s.addr .endOfData last ++ []))
      (henv.trans (List.append_assoc _ _ _))
  rw [← hparams, ← haddr] at htenv
  obtain ⟨u, hdata, hu⟩ := run_data frames hstreams htres hframes htenv
  have huenv := hu.env
  rw [← hu.params, ← hu.addr] at huenv
  obtain ⟨hlaststep, -, hdrained⟩ := step_transfer hu.streams (by decide) hlast huenv
  rw [if_pos rfl, finishRun_some] at hlaststep
  have hrun := (run_add core _ 1 hdata).trans (core_run_succ 0 u _ hlaststep)
  rw [← run_add core 2 _ hopening, show 2 + (frames.length + 1) = frames.length + 3 by omega] at hrun
  refine ⟨_, hrun, rfl, ?result, ?deliveries, ?rxcount, hdrained⟩
  case result => rw [State.setResult_result, hu.params, hparams]
  case deliveries =>
    rw [List.map_append, ← List.append_assoc, ← htdel, ← hu.deliveries]
    exact deliveriesOf_append _ _
  case rxcount =>
    change u.rxcount + u.sessionP.setWidth 32 = _
    rw [hu.rxcount, htcount, BitVec.zero_add, ← BitVec.ofNat_toNat, hu.streams.size,
      ← BitVec.ofNat_add, Nat.add_mul, Nat.one_mul]

/-- A block under P0 that streams frames of 32 bytes, with the environment's next choices. -/
def streamingUnder (env : List EnvChoice) : State :=
  { State.resetWith Params.p0 with
    fsm := .streamingFrames, consumerValid := true, sessionP := 32#9, env := env }

/-- Settles O42: an environment of `n` Data frames keeps the block streaming for `n` steps. -/
theorem streamNeedNotEnd : Obligations.StreamNeedNotEnd := by
  unfold Obligations.StreamNeedNotEnd
  intro n
  have hok : Params.p0.ok = true := by decide
  let frames := List.replicate n (List.replicate 32 0#8)
  let s := streamingUnder (frames.flatMap (transferChoices Params.p0 Params.p0.addrDefault .data))
  have hstreams : s.Streams 32 := ⟨hok, rfl, rfl, by decide, rfl, rfl⟩
  have hinv : s.Inv := ⟨hok, rfl, fun _ => ⟨rfl, rfl⟩, Memory.holds_nil _,
    Memory.holds_nil _, Memory.holds_nil _⟩
  have hlen : ∀ raw ∈ frames, raw.length = 32 := fun raw hraw => by
    rw [List.eq_of_mem_replicate hraw]
    rfl
  obtain ⟨t, hrun, ht⟩ := run_data frames hstreams rfl hlen (List.append_nil _).symm
  refine ⟨s, t, hinv, rfl, rfl, ?_, ht.streams.fsm, ht.result, ?_⟩
  · rwa [List.length_replicate] at hrun
  · rw [ht.deliveries, List.length_append, List.length_map, List.length_replicate]

end Sys2Proof.Machine
end

section
/-! PROOFS. The step and the reset event (spec/20_memory.md, spec/70_reset_and_hazards.md). -/

namespace Sys2Proof.Machine

/-- Settles O46: each field of the power-on state. -/
theorem resetValues : Obligations.ResetValues := by
  unfold Obligations.ResetValues
  intro p s
  exact ⟨rfl, rfl, rfl, rfl, rfl, rfl, rfl, rfl, rfl, rfl, fun _ => ⟨rfl, rfl, rfl⟩, rfl⟩

/-- The reset event is taken in every state (R290). -/
theorem step_reset {s : State} {rest : List Input} (h : s.inputs = .reset :: rest) :
    step s = .next (s.setInputs rest).resetEvent := by
  unfold step
  rw [h]

/-- Settles O47: the step is the reset event, whose fields are those of R40. -/
theorem resetEventLandsInAnyState : Obligations.ResetEventLandsInAnyState := by
  unfold Obligations.ResetEventLandsInAnyState
  intro s rest h
  exact ⟨_, step_reset h, rfl, rfl, rfl, rfl, rfl, rfl, rfl, rfl, rfl, rfl, rfl,
    fun _ => ⟨rfl, rfl, rfl⟩, rfl, rfl, rfl, rfl, rfl, rfl, rfl, rfl, rfl⟩

/-- Settles O49: with nothing presented the step is `advance`, which does nothing in `Idle`. -/
theorem idleBlockWaits : Obligations.IdleBlockWaits := by
  unfold Obligations.IdleBlockWaits
  exact fun s hidle hin => (step_advance s hin).trans (advance_idle s hidle)

/-! ### Taking an instruction -/

theorem source_eq_upload_iff (i : Instr) : i.source = .upload ↔ ∃ a c, i = .upImage a c := by
  cases i <;> simp [Instr.source]

theorem source_eq_line_iff (i : Instr) : i.source = .line ↔ i.fromModule = true := by
  simp [Instr.fromModule]

theorem source_eq_block {i : Instr} (hm : i.fromModule = false) (hu : ∀ a c, i ≠ .upImage a c) :
    i.source = .block := by
  cases h : i.source with
  | line => simp [(source_eq_line_iff i).1 h] at hm
  | upload =>
    obtain ⟨a, c, hi⟩ := (source_eq_upload_iff i).1 h
    exact absurd hi (hu a c)
  | block => rfl

/-- The state made ready for an instruction, by the instruction's source. -/
theorem readyFor_line {i : Instr} (s : State) (h : i.source = .line) : s.readyFor i = s := by
  rw [State.readyFor, h]

theorem readyFor_block {i : Instr} (s : State) (h : i.source = .block) :
    s.readyFor i = s.setFsm .idle := by
  rw [State.readyFor, h]

theorem readyFor_upload_fsm {i : Instr} (s : State) (h : i.source = .upload) :
    (s.readyFor i).fsm = .awaitingGenerateAck := by
  rw [State.readyFor, h]
  dsimp only
  split
  · assumption
  · rfl

/-- With a word presented, the next step runs the word's instruction in the state made ready for it. -/
theorem step_withFetchWord {s : State} {i : Instr} {nbits w : Nat}
    (hd : decode s.params (layoutWord nbits w) = .ok i) :
    step (s.withFetchWord nbits w) = exec i (s.readyFor i) := by
  have hready : s.readyForBytes (layoutWord nbits w) = s.readyFor i := by
    rw [State.readyForBytes, hd]
  rw [State.withFetchWord, hready, step_code (i := i) (State.setInputs_inputs ..)
    (by rw [State.setInputs_params, State.readyFor_params, hd])
    (by rw [State.takes_setInputs, State.takes_readyFor])]
  rw [← State.readyFor_inputs s i]
  rfl

/-- Settles O48: what the block takes it runs, and in the state made ready for an instruction it takes it. -/
theorem stepRunsTheDecodedInstruction : Obligations.StepRunsTheDecodedInstruction := by
  unfold Obligations.StepRunsTheDecodedInstruction
  intro s i bs rest nbits w taken
  have htakes : taken → s.takes i = true := by
    rintro (hidle | hmodule | ⟨⟨a, c, rfl⟩, hf⟩)
    · exact State.takes_of_idle i hidle
    · exact State.takes_of_fromModule hmodule
    · exact State.takes_upImage a c hf
  exact ⟨fun ht h => step_issue h (htakes ht), fun ht h hd => step_code h hd (htakes ht),
    step_withFetchWord, fun h => readyFor_line s ((source_eq_line_iff i).2 h),
    fun h => readyFor_upload_fsm s ((source_eq_upload_iff i).2 h),
    fun hm hu => readyFor_block s (source_eq_block hm hu)⟩

/-! ### Waiting -/

theorem takes_block_busy {s : State} {i : Instr} (hi : i.source = .block) (h : s.fsm ≠ .idle) :
    s.takes i = false := by
  simp [State.takes, hi, h]

theorem takes_upImage_streaming {s : State} (a : Bytes4) (c : Half) (h : s.fsm = .streamingFrames) :
    s.takes (.upImage a c) = false := by
  simp [State.takes, Instr.source, h]

/-- What is refused as busy and not taken waits, issued or as bytes. -/
theorem busy_waits {s : State} {i : Instr} {rest : List Input} (hexec : exec i s = .refused .busy)
    (ht : s.takes i = false) :
    exec i s = .refused .busy ∧ (s.inputs = .issue i :: rest → step s = advance s) ∧
      (∀ bs, decode s.params bs = .ok i → s.inputs = .code bs :: rest → step s = advance s) :=
  ⟨hexec, fun h => step_waits h ht, fun _ hd h => step_code_waits h hd ht⟩

/-- Settles O44: a host operation's meaning is under `whenIdle`, and its source is the host. -/
theorem busyBlockTakesNoHostOperation : Obligations.BusyBlockTakesNoHostOperation := by
  unfold Obligations.BusyBlockTakesNoHostOperation
  intro s i rest hi
  cases i with
  | upImage a c =>
    have hexec : exec (.upImage a c) s = .refused .busy := by
      change execUpImage a s = _
      rw [execUpImage, hi]
    exact busy_waits hexec (takes_upImage_streaming a c hi)
  | opEncode | opDecode | opVerifyChecksum | opValidate | opVfyPwd | opReadSysPara | opTemplateNum
  | opSetBaud | opSetSecurity | opSetDatalen | opGenImage | opSetAddr | opExpand
  | opRegisterConsumer | opUploadImage | opReadRxcount | frameCommand | vfyPwd | readSysPara
  | templateNum | setBaud | setSecurity | setDatalen | genImage =>
    exact busy_waits (whenIdle_busy s _ hi) (takes_block_busy rfl hi)
  | _ => exact hi.elim

end Sys2Proof.Machine
end
